-- ==== Sys2Proof/Word.lean ====
section
/-! DEFINITION. The data widths of the C167 (spec 00_scope.md R9): bytes, words and the 24-bit physical address. -/
namespace Sys2Proof

/-- A byte, 8 bits (R9). -/
abbrev Byte := BitVec 8

/-- A word, 16 bits (R9). -/
abbrev Word := BitVec 16

/-- A physical address, 24 bits: segment in bits 23-16, offset in bits 15-0 (R100). -/
abbrev Addr := BitVec 24

/-- The number of a word GPR R0..R15 or of a byte GPR RL0, RH0 .. RL7, RH7 (R21, R22). -/
abbrev Gpr := BitVec 4

end Sys2Proof
end

