-- ==== Sys2Proof/Machine/Bits.lean ====
section
/-! DEFINITION. Bits and fields of words, and the shapes of a pin edge. -/
namespace Sys2Proof.Machine

/-- Bit `i` of a word (00_scope.md R13). -/
def wbit (w : Word) (i : Nat) : Bool := w.getLsbD i

/-- The word with only bit `i` set. -/
def bitMask (i : Nat) : Word := 1#16 <<< i

/-- `w` with bit `i` set to `b`. -/
def wset (w : Word) (i : Nat) (b : Bool) : Word :=
  if b then w ||| bitMask i else w &&& ~~~(bitMask i)

/-- The field of `len` bits from bit `lo` up, as a number. -/
def fieldNat (w : Word) (lo len : Nat) : Nat := (w.extractLsb' lo len).toNat

/-- The low byte of a word. -/
def loByte (w : Word) : Byte := w.extractLsb' 0 8

/-- The high byte of a word. -/
def hiByte (w : Word) : Byte := w.extractLsb' 8 8

/-- A word from its low and high byte (R101). -/
def mkWord (lo hi : Byte) : Word := hi ++ lo

/-- A bit as a word. -/
def wordOfBool (b : Bool) : Word := if b then 1 else 0

/-- The odd parity sum of the low `n` bits. -/
def parityOf (w : Word) : Nat → Bool
  | 0 => false
  | n + 1 => xor (wbit w n) (parityOf w n)

/-- The edge selection of the counter inputs: 01 rising, 10 falling, 11 any, 00 none (62_peripherals_b.md R687). A pin
without a previous sample has no edge. -/
def edgeSel (sel : Nat) (prev : Option Bool) (now : Bool) : Bool :=
  match prev with
  | none => false
  | some p =>
    match sel % 4 with
    | 1 => !p && now
    | 2 => p && !now
    | 3 => p != now
    | _ => false

end Sys2Proof.Machine
end

