-- ==== Sys2Proof/Config.lean ====
section
/-! DEFINITION. What the spec leaves to the implementation or leaves open: the derivative (00_scope.md R10) and the
free values. A free value is an opaque constant without a body, applied to the point of the spec that leaves it open,
to the step counter of the state (`State.free`) and to an index within the step: nothing can be proved of it. -/
namespace Sys2Proof

/-- The on-chip units of a derivative (R10). -/
structure Device where
  /-- 2 KByte XRAM at 00'E000h (HAS_XRAM) -/
  hasXram : Bool
  /-- CAN module at 00'EF00h (HAS_CAN) -/
  hasCan : Bool
  /-- PLL on the clock input (HAS_PLL) -/
  hasPll : Bool
  /-- bytes of internal ROM or Flash (ROM_SIZE) -/
  romSize : Nat
deriving DecidableEq, Repr

namespace Config

/-- The C167CR-16RM, the derivative with every unit (R3, R10). DESIGN CHOICE (log 2). -/
def c167cr16rm : Device := { hasXram := true, hasCan := true, hasPll := true, romSize := 0x20000 }

/-- The points of the spec whose value or choice is open. Each names the entry of 93_implementation_defined.md (U),
of 92_eei_decisions.md (D) or the rule that leaves it open. -/
inductive Point
  /-- quotient (MDL) of a division that sets V, U19 -/
  | divQuotient
  /-- remainder (MDH) of a division that sets V, U19 -/
  | divRemainder
  /-- flags Z and N after a division that sets V, U19 -/
  | divFlags
  /-- internal bits of MDC after a multiply or divide, U8 -/
  | mdcInternal
  /-- value delivered by a word read at an odd address, U14 -/
  | oddRead
  /-- value delivered by a read that raises ILLBUS, U23, or of the absent ROM in bootstrap loader mode, R662 -/
  | busErrorRead
  /-- value read from the write-only SSCTB, U11 -/
  | sscTransmitBuffer
  /-- bits of SSCRB above the data width, U30 -/
  | sscReceiveBits
  /-- S0RBUF and SSCRB before the first reception, R903 -/
  | serialReset
  /-- the data register of an instruction that also auto-modifies it, U18 -/
  | pointerAlias
  /-- page or segment override outside segment 0 with SGTDIS = 1: truncated or not, U17 -/
  | overrideTruncated
  /-- the CPU clocks of an instruction beyond the two of one machine cycle, D1 -/
  | clocks
  /-- the clocks of a multiply or divide before it is interrupted, D1, D13 -/
  | partClocks
  /-- an accepted request is serviced at this boundary or a later one, D7 -/
  | takeRequest
  /-- a request accepted only under the PSW before its last write, R924 -/
  | lateRequest
  /-- a second instruction after RETI before the next service, R546 -/
  | secondAfterReti
  /-- a multiply or divide is interrupted rather than completed first, D13 -/
  | interruptMul
  /-- intermediate state K of an interrupted multiply or divide, D13 -/
  | mulState
  /-- the result of a multiply or divide resumed with changed registers, U20 -/
  | undefinedResult
  /-- the old value of CP in the instruction after its update, R920, R921 -/
  | oldCp
  /-- the old value of DPPn in the instruction after its update, R920, R922 -/
  | oldDpp
  /-- the old value of SP in a popping instruction after an explicit write, R920, R923 -/
  | oldSp
  /-- the old SYSCON, BUSCONx, ADDRSELx in the instruction after their update, R920, R925, R927 -/
  | oldMap
  /-- the mapping that a fetch uses in a changed area until an absolute branch to it, R925, R927 -/
  | fetchMap
  /-- a hardware change falls into the state in which software writes the register, R62 (c), R135 -/
  | sameState
  /-- a hardware change falls between the read and the write of a read-modify-write, R133, R134, R312 -/
  | lostUpdate
  /-- contents of IRAM and XRAM after a power-on reset, U42, D4 -/
  | powerOnRam
  /-- contents of the CAN registers after a power-on reset, U40, R880 -/
  | canReset
  /-- CAN status byte and INTID after a reset, U40 -/
  | canStatus
  /-- reserved CAN locations, U35 -/
  | canReserved
  /-- data bytes beyond DLC after a reception, U38 -/
  | canUnusedData
  /-- ADM changed between single and continuous during a fixed channel conversion: R825 and R835 differ by one
  conversion -/
  | adcModeChange
  /-- the CAN bus is idle, so that a transmission can start, R885 -/
  | canBusIdle
  /-- level of CAN_TxD while a frame is on the bus, R882, D35 -/
  | canLine
  /-- registers the boot loader may have used, U28 -/
  | bootState
  /-- the last external write before a software or watchdog reset is lost, U41 -/
  | abortedWrite
  /-- CPU clocks of a reset sequence beyond the 516 of D6 -/
  | resetClocks
  /-- how far the instruction fetches run ahead of the program, R151, R154, D10 -/
  | prefetch
  /-- the level sampled where the channel of an injected conversion changes in its sample phase, R829, U34 -/
  | adcSwitched
  /-- what the bus controller leaves in the latches of PORT0 and PORT1, R606, R607 -/
  | busLatch
  /-- level of the system clock output CLKOUT, R48 -/
  | clkout
deriving DecidableEq, Repr

/-- A free word. -/
opaque freeWord (p : Point) (step index : Nat) : Word

/-- A free bit or choice. -/
opaque freeBool (p : Point) (step index : Nat) : Bool

/-- A free number. -/
opaque freeNat (p : Point) (step index : Nat) : Nat

/-- A free byte: half of a free word. -/
def freeByte (p : Point) (step index : Nat) : Byte := (freeWord p step index).setWidth 8

end Config
end Sys2Proof
end

