-- ==== Sys2Proof/Machine/SfrMap.lean ====
section
/-! DEFINITION. The register map of the SFR and ESFR areas (spec 11_sfr_map.md R80, R84, R85): the number of each
register, its name, the bits software can write, and whether it holds protected bits (20_memory.md R134). -/
namespace Sys2Proof.Machine

/-- A word location of the register areas: 0..255 are the ESFR words 00'F000h + 2n, 256..511 the SFR words
00'FE00h + 2(n - 256) (R80). With the short address `reg` the register is `reg` (ESFR) or `256 + reg` (SFR). -/
abbrev Sfr := Fin 512

/-- The register at short address `reg` of the area `esfr` selects (R80, R81). -/
def Sfr.ofReg (esfr : Bool) (reg : Byte) : Sfr :=
  if esfr then ⟨reg.toNat, by omega⟩ else ⟨256 + reg.toNat, by omega⟩

/-- The 16-bit address of a register (R80). -/
def Sfr.addr (r : Sfr) : Nat := if r.val < 256 then 0xF000 + 2 * r.val else 0xFE00 + 2 * (r.val - 256)

/-- T7, F050h. -/
def Sfr.t7 : Sfr := 40
/-- T8, F052h. -/
def Sfr.t8 : Sfr := 41
/-- T7REL, F054h. -/
def Sfr.t7rel : Sfr := 42
/-- T8REL, F056h. -/
def Sfr.t8rel : Sfr := 43
/-- ADDAT2, F0A0h. -/
def Sfr.addat2 : Sfr := 80
/-- SSCTB, F0B0h. -/
def Sfr.ssctb : Sfr := 88
/-- SSCRB, F0B2h. -/
def Sfr.sscrb : Sfr := 89
/-- SSCBR, F0B4h. -/
def Sfr.sscbr : Sfr := 90
/-- DP0L, F100h. -/
def Sfr.dp0l : Sfr := 128
/-- DP0H, F102h. -/
def Sfr.dp0h : Sfr := 129
/-- DP1L, F104h. -/
def Sfr.dp1l : Sfr := 130
/-- DP1H, F106h. -/
def Sfr.dp1h : Sfr := 131
/-- RP0H, F108h. -/
def Sfr.rp0h : Sfr := 132
/-- T7IC, F17Ah. -/
def Sfr.t7ic : Sfr := 189
/-- T8IC, F17Ch. -/
def Sfr.t8ic : Sfr := 190
/-- PWMIC, F17Eh. -/
def Sfr.pwmic : Sfr := 191
/-- XP0IC, F186h. -/
def Sfr.xp0ic : Sfr := 195
/-- XP1IC, F18Eh. -/
def Sfr.xp1ic : Sfr := 199
/-- XP2IC, F196h. -/
def Sfr.xp2ic : Sfr := 203
/-- S0TBIC, F19Ch. -/
def Sfr.s0tbic : Sfr := 206
/-- XP3IC, F19Eh. -/
def Sfr.xp3ic : Sfr := 207
/-- EXICON, F1C0h. -/
def Sfr.exicon : Sfr := 224
/-- ODP2, F1C2h. -/
def Sfr.odp2 : Sfr := 225
/-- PICON, F1C4h. -/
def Sfr.picon : Sfr := 226
/-- ODP3, F1C6h. -/
def Sfr.odp3 : Sfr := 227
/-- ODP6, F1CEh. -/
def Sfr.odp6 : Sfr := 231
/-- ODP7, F1D2h. -/
def Sfr.odp7 : Sfr := 233
/-- ODP8, F1D6h. -/
def Sfr.odp8 : Sfr := 235
/-- CSP, FE08h. -/
def Sfr.csp : Sfr := 260
/-- MDH, FE0Ch. -/
def Sfr.mdh : Sfr := 262
/-- MDL, FE0Eh. -/
def Sfr.mdl : Sfr := 263
/-- CP, FE10h. -/
def Sfr.cp : Sfr := 264
/-- SP, FE12h. -/
def Sfr.sp : Sfr := 265
/-- STKOV, FE14h. -/
def Sfr.stkov : Sfr := 266
/-- STKUN, FE16h. -/
def Sfr.stkun : Sfr := 267
/-- T2, FE40h. -/
def Sfr.t2 : Sfr := 288
/-- T3, FE42h. -/
def Sfr.t3 : Sfr := 289
/-- T4, FE44h. -/
def Sfr.t4 : Sfr := 290
/-- T5, FE46h. -/
def Sfr.t5 : Sfr := 291
/-- T6, FE48h. -/
def Sfr.t6 : Sfr := 292
/-- CAPREL, FE4Ah. -/
def Sfr.caprel : Sfr := 293
/-- T0, FE50h. -/
def Sfr.t0 : Sfr := 296
/-- T1, FE52h. -/
def Sfr.t1 : Sfr := 297
/-- T0REL, FE54h. -/
def Sfr.t0rel : Sfr := 298
/-- T1REL, FE56h. -/
def Sfr.t1rel : Sfr := 299
/-- ADDAT, FEA0h. -/
def Sfr.addat : Sfr := 336
/-- WDT, FEAEh. -/
def Sfr.wdt : Sfr := 343
/-- S0TBUF, FEB0h. -/
def Sfr.s0tbuf : Sfr := 344
/-- S0RBUF, FEB2h. -/
def Sfr.s0rbuf : Sfr := 345
/-- S0BG, FEB4h. -/
def Sfr.s0bg : Sfr := 346
/-- P0L, FF00h. -/
def Sfr.p0l : Sfr := 384
/-- P0H, FF02h. -/
def Sfr.p0h : Sfr := 385
/-- P1L, FF04h. -/
def Sfr.p1l : Sfr := 386
/-- P1H, FF06h. -/
def Sfr.p1h : Sfr := 387
/-- MDC, FF0Eh. -/
def Sfr.mdc : Sfr := 391
/-- PSW, FF10h. -/
def Sfr.psw : Sfr := 392
/-- SYSCON, FF12h. -/
def Sfr.syscon : Sfr := 393
/-- ZEROS, FF1Ch. -/
def Sfr.zeros : Sfr := 398
/-- ONES, FF1Eh. -/
def Sfr.ones : Sfr := 399
/-- T78CON, FF20h. -/
def Sfr.t78con : Sfr := 400
/-- PWMCON0, FF30h. -/
def Sfr.pwmcon0 : Sfr := 408
/-- PWMCON1, FF32h. -/
def Sfr.pwmcon1 : Sfr := 409
/-- T2CON, FF40h. -/
def Sfr.t2con : Sfr := 416
/-- T3CON, FF42h. -/
def Sfr.t3con : Sfr := 417
/-- T4CON, FF44h. -/
def Sfr.t4con : Sfr := 418
/-- T5CON, FF46h. -/
def Sfr.t5con : Sfr := 419
/-- T6CON, FF48h. -/
def Sfr.t6con : Sfr := 420
/-- T01CON, FF50h. -/
def Sfr.t01con : Sfr := 424
/-- T2IC, FF60h. -/
def Sfr.t2ic : Sfr := 432
/-- T3IC, FF62h. -/
def Sfr.t3ic : Sfr := 433
/-- T4IC, FF64h. -/
def Sfr.t4ic : Sfr := 434
/-- T5IC, FF66h. -/
def Sfr.t5ic : Sfr := 435
/-- T6IC, FF68h. -/
def Sfr.t6ic : Sfr := 436
/-- CRIC, FF6Ah. -/
def Sfr.cric : Sfr := 437
/-- S0TIC, FF6Ch. -/
def Sfr.s0tic : Sfr := 438
/-- S0RIC, FF6Eh. -/
def Sfr.s0ric : Sfr := 439
/-- S0EIC, FF70h. -/
def Sfr.s0eic : Sfr := 440
/-- SSCTIC, FF72h. -/
def Sfr.ssctic : Sfr := 441
/-- SSCRIC, FF74h. -/
def Sfr.sscric : Sfr := 442
/-- SSCEIC, FF76h. -/
def Sfr.ssceic : Sfr := 443
/-- ADCIC, FF98h. -/
def Sfr.adcic : Sfr := 460
/-- ADEIC, FF9Ah. -/
def Sfr.adeic : Sfr := 461
/-- T0IC, FF9Ch. -/
def Sfr.t0ic : Sfr := 462
/-- T1IC, FF9Eh. -/
def Sfr.t1ic : Sfr := 463
/-- ADCON, FFA0h. -/
def Sfr.adcon : Sfr := 464
/-- P5, FFA2h. -/
def Sfr.p5 : Sfr := 465
/-- TFR, FFACh. -/
def Sfr.tfr : Sfr := 470
/-- WDTCON, FFAEh. -/
def Sfr.wdtcon : Sfr := 471
/-- S0CON, FFB0h. -/
def Sfr.s0con : Sfr := 472
/-- SSCCON, FFB2h. -/
def Sfr.ssccon : Sfr := 473
/-- P2, FFC0h. -/
def Sfr.p2 : Sfr := 480
/-- DP2, FFC2h. -/
def Sfr.dp2 : Sfr := 481
/-- P3, FFC4h. -/
def Sfr.p3 : Sfr := 482
/-- DP3, FFC6h. -/
def Sfr.dp3 : Sfr := 483
/-- P4, FFC8h. -/
def Sfr.p4 : Sfr := 484
/-- DP4, FFCAh. -/
def Sfr.dp4 : Sfr := 485
/-- P6, FFCCh. -/
def Sfr.p6 : Sfr := 486
/-- DP6, FFCEh. -/
def Sfr.dp6 : Sfr := 487
/-- P7, FFD0h. -/
def Sfr.p7 : Sfr := 488
/-- DP7, FFD2h. -/
def Sfr.dp7 : Sfr := 489
/-- P8, FFD4h. -/
def Sfr.p8 : Sfr := 490
/-- DP8, FFD6h. -/
def Sfr.dp8 : Sfr := 491
/-- DPP0..DPP3, FE00h + 2n. -/
def Sfr.dpp (n : Fin 4) : Sfr := ⟨256 + n.val, by omega⟩
/-- ADDRSEL1..ADDRSEL4, FE18h + 2(n - 1), numbered 0..3 here. -/
def Sfr.addrsel (n : Fin 4) : Sfr := ⟨268 + n.val, by omega⟩
/-- BUSCON0 (FF0Ch) and BUSCON1..BUSCON4 (FF14h + 2(n - 1)). -/
def Sfr.buscon (n : Fin 5) : Sfr := if n.val = 0 then 390 else ⟨393 + n.val, by omega⟩
/-- PT0..PT3, F030h + 2n. -/
def Sfr.pt (n : Fin 4) : Sfr := ⟨24 + n.val, by omega⟩
/-- PP0..PP3, F038h + 2n. -/
def Sfr.pp (n : Fin 4) : Sfr := ⟨28 + n.val, by omega⟩
/-- PW0..PW3, FE30h + 2n. -/
def Sfr.pw (n : Fin 4) : Sfr := ⟨280 + n.val, by omega⟩
/-- PECC0..PECC7, FEC0h + 2n. -/
def Sfr.pecc (n : Fin 8) : Sfr := ⟨352 + n.val, by omega⟩
/-- CCM0..CCM3 (FF52h + 2n) and CCM4..CCM7 (FF22h + 2(n - 4)). -/
def Sfr.ccm (n : Fin 8) : Sfr := if n.val < 4 then ⟨425 + n.val, by omega⟩ else ⟨397 + n.val, by omega⟩
/-- CC0..CC15 (FE80h + 2n) and CC16..CC31 (FE60h + 2(n - 16)). -/
def Sfr.cc (n : Fin 32) : Sfr := if n.val < 16 then ⟨320 + n.val, by omega⟩ else ⟨288 + n.val, by omega⟩
/-- CC0IC..CC31IC (R783). -/
def Sfr.ccic (n : Fin 32) : Sfr :=
  if n.val < 16 then ⟨444 + n.val, by omega⟩
  else if n.val < 29 then ⟨160 + n.val, by omega⟩
  else if n.val = 29 then 194 else if n.val = 30 then 198 else 202

/-- One row of the register map. -/
structure SfrRow where
  /-- the register's number -/
  num : Nat
  name : String
  /-- the bits a software write changes; the others keep their value (reserved and read-only bits) -/
  mask : Word
  /-- the word holds protected bits (R134) -/
  prot : Bool
deriving DecidableEq, Repr

/-- The register map, part 1 of 8. -/
def sfrTable1 : List SfrRow := [
  ⟨24, "PT0", 0xFFFF, false⟩,
  ⟨25, "PT1", 0xFFFF, false⟩,
  ⟨26, "PT2", 0xFFFF, false⟩,
  ⟨27, "PT3", 0xFFFF, false⟩,
  ⟨28, "PP0", 0xFFFF, false⟩,
  ⟨29, "PP1", 0xFFFF, false⟩,
  ⟨30, "PP2", 0xFFFF, false⟩,
  ⟨31, "PP3", 0xFFFF, false⟩,
  ⟨40, "T7", 0xFFFF, false⟩,
  ⟨41, "T8", 0xFFFF, false⟩,
  ⟨42, "T7REL", 0xFFFF, false⟩,
  ⟨43, "T8REL", 0xFFFF, false⟩,
  ⟨80, "ADDAT2", 0xF3FF, false⟩,
  ⟨88, "SSCTB", 0xFFFF, false⟩,
  ⟨89, "SSCRB", 0x0000, false⟩,
  ⟨90, "SSCBR", 0xFFFF, false⟩,
  ⟨128, "DP0L", 0x00FF, false⟩,
  ⟨129, "DP0H", 0x00FF, false⟩,
  ⟨130, "DP1L", 0x00FF, false⟩,
  ⟨131, "DP1H", 0x00FF, false⟩,
  ⟨132, "RP0H", 0x0000, false⟩,
  ⟨176, "CC16IC", 0x00FF, true⟩,
  ⟨177, "CC17IC", 0x00FF, true⟩,
  ⟨178, "CC18IC", 0x00FF, true⟩,
  ⟨179, "CC19IC", 0x00FF, true⟩,
  ⟨180, "CC20IC", 0x00FF, true⟩]
/-- The register map, part 2 of 8. -/
def sfrTable2 : List SfrRow := [
  ⟨181, "CC21IC", 0x00FF, true⟩,
  ⟨182, "CC22IC", 0x00FF, true⟩,
  ⟨183, "CC23IC", 0x00FF, true⟩,
  ⟨184, "CC24IC", 0x00FF, true⟩,
  ⟨185, "CC25IC", 0x00FF, true⟩,
  ⟨186, "CC26IC", 0x00FF, true⟩,
  ⟨187, "CC27IC", 0x00FF, true⟩,
  ⟨188, "CC28IC", 0x00FF, true⟩,
  ⟨189, "T7IC", 0x00FF, true⟩,
  ⟨190, "T8IC", 0x00FF, true⟩,
  ⟨191, "PWMIC", 0x00FF, true⟩,
  ⟨194, "CC29IC", 0x00FF, true⟩,
  ⟨195, "XP0IC", 0x00FF, true⟩,
  ⟨198, "CC30IC", 0x00FF, true⟩,
  ⟨199, "XP1IC", 0x00FF, true⟩,
  ⟨202, "CC31IC", 0x00FF, true⟩,
  ⟨203, "XP2IC", 0x00FF, true⟩,
  ⟨206, "S0TBIC", 0x00FF, true⟩,
  ⟨207, "XP3IC", 0x00FF, true⟩,
  ⟨224, "EXICON", 0xFFFF, false⟩,
  ⟨225, "ODP2", 0xFFFF, false⟩,
  ⟨226, "PICON", 0x003F, false⟩,
  ⟨227, "ODP3", 0x2FFF, false⟩,
  ⟨231, "ODP6", 0x00FF, false⟩,
  ⟨233, "ODP7", 0x00FF, false⟩,
  ⟨235, "ODP8", 0x00FF, false⟩]
/-- The register map, part 3 of 8. -/
def sfrTable3 : List SfrRow := [
  ⟨256, "DPP0", 0x03FF, false⟩,
  ⟨257, "DPP1", 0x03FF, false⟩,
  ⟨258, "DPP2", 0x03FF, false⟩,
  ⟨259, "DPP3", 0x03FF, false⟩,
  ⟨260, "CSP", 0x0000, false⟩,
  ⟨262, "MDH", 0xFFFF, false⟩,
  ⟨263, "MDL", 0xFFFF, false⟩,
  ⟨264, "CP", 0x0FFE, false⟩,
  ⟨265, "SP", 0x0FFE, false⟩,
  ⟨266, "STKOV", 0x0FFE, false⟩,
  ⟨267, "STKUN", 0x0FFE, false⟩,
  ⟨268, "ADDRSEL1", 0xFFFF, false⟩,
  ⟨269, "ADDRSEL2", 0xFFFF, false⟩,
  ⟨270, "ADDRSEL3", 0xFFFF, false⟩,
  ⟨271, "ADDRSEL4", 0xFFFF, false⟩,
  ⟨280, "PW0", 0xFFFF, false⟩,
  ⟨281, "PW1", 0xFFFF, false⟩,
  ⟨282, "PW2", 0xFFFF, false⟩,
  ⟨283, "PW3", 0xFFFF, false⟩,
  ⟨288, "T2", 0xFFFF, false⟩,
  ⟨289, "T3", 0xFFFF, false⟩,
  ⟨290, "T4", 0xFFFF, false⟩,
  ⟨291, "T5", 0xFFFF, false⟩,
  ⟨292, "T6", 0xFFFF, false⟩,
  ⟨293, "CAPREL", 0xFFFF, false⟩,
  ⟨296, "T0", 0xFFFF, false⟩]
/-- The register map, part 4 of 8. -/
def sfrTable4 : List SfrRow := [
  ⟨297, "T1", 0xFFFF, false⟩,
  ⟨298, "T0REL", 0xFFFF, false⟩,
  ⟨299, "T1REL", 0xFFFF, false⟩,
  ⟨304, "CC16", 0xFFFF, false⟩,
  ⟨305, "CC17", 0xFFFF, false⟩,
  ⟨306, "CC18", 0xFFFF, false⟩,
  ⟨307, "CC19", 0xFFFF, false⟩,
  ⟨308, "CC20", 0xFFFF, false⟩,
  ⟨309, "CC21", 0xFFFF, false⟩,
  ⟨310, "CC22", 0xFFFF, false⟩,
  ⟨311, "CC23", 0xFFFF, false⟩,
  ⟨312, "CC24", 0xFFFF, false⟩,
  ⟨313, "CC25", 0xFFFF, false⟩,
  ⟨314, "CC26", 0xFFFF, false⟩,
  ⟨315, "CC27", 0xFFFF, false⟩,
  ⟨316, "CC28", 0xFFFF, false⟩,
  ⟨317, "CC29", 0xFFFF, false⟩,
  ⟨318, "CC30", 0xFFFF, false⟩,
  ⟨319, "CC31", 0xFFFF, false⟩,
  ⟨320, "CC0", 0xFFFF, false⟩,
  ⟨321, "CC1", 0xFFFF, false⟩,
  ⟨322, "CC2", 0xFFFF, false⟩,
  ⟨323, "CC3", 0xFFFF, false⟩,
  ⟨324, "CC4", 0xFFFF, false⟩,
  ⟨325, "CC5", 0xFFFF, false⟩,
  ⟨326, "CC6", 0xFFFF, false⟩]
/-- The register map, part 5 of 8. -/
def sfrTable5 : List SfrRow := [
  ⟨327, "CC7", 0xFFFF, false⟩,
  ⟨328, "CC8", 0xFFFF, false⟩,
  ⟨329, "CC9", 0xFFFF, false⟩,
  ⟨330, "CC10", 0xFFFF, false⟩,
  ⟨331, "CC11", 0xFFFF, false⟩,
  ⟨332, "CC12", 0xFFFF, false⟩,
  ⟨333, "CC13", 0xFFFF, false⟩,
  ⟨334, "CC14", 0xFFFF, false⟩,
  ⟨335, "CC15", 0xFFFF, false⟩,
  ⟨336, "ADDAT", 0xF3FF, false⟩,
  ⟨343, "WDT", 0x0000, false⟩,
  ⟨344, "S0TBUF", 0xFFFF, false⟩,
  ⟨345, "S0RBUF", 0x0000, false⟩,
  ⟨346, "S0BG", 0x1FFF, false⟩,
  ⟨352, "PECC0", 0x07FF, false⟩,
  ⟨353, "PECC1", 0x07FF, false⟩,
  ⟨354, "PECC2", 0x07FF, false⟩,
  ⟨355, "PECC3", 0x07FF, false⟩,
  ⟨356, "PECC4", 0x07FF, false⟩,
  ⟨357, "PECC5", 0x07FF, false⟩,
  ⟨358, "PECC6", 0x07FF, false⟩,
  ⟨359, "PECC7", 0x07FF, false⟩,
  ⟨384, "P0L", 0x00FF, false⟩,
  ⟨385, "P0H", 0x00FF, false⟩,
  ⟨386, "P1L", 0x00FF, false⟩,
  ⟨387, "P1H", 0x00FF, false⟩]
/-- The register map, part 6 of 8. -/
def sfrTable6 : List SfrRow := [
  ⟨390, "BUSCON0", 0xD6FF, false⟩,
  ⟨391, "MDC", 0x00FF, false⟩,
  ⟨392, "PSW", 0xFC7F, false⟩,
  ⟨393, "SYSCON", 0xFF87, false⟩,
  ⟨394, "BUSCON1", 0xD6FF, false⟩,
  ⟨395, "BUSCON2", 0xD6FF, false⟩,
  ⟨396, "BUSCON3", 0xD6FF, false⟩,
  ⟨397, "BUSCON4", 0xD6FF, false⟩,
  ⟨398, "ZEROS", 0x0000, false⟩,
  ⟨399, "ONES", 0x0000, false⟩,
  ⟨400, "T78CON", 0x4F4F, false⟩,
  ⟨401, "CCM4", 0xFFFF, false⟩,
  ⟨402, "CCM5", 0xFFFF, false⟩,
  ⟨403, "CCM6", 0xFFFF, false⟩,
  ⟨404, "CCM7", 0xFFFF, false⟩,
  ⟨408, "PWMCON0", 0xFFFF, false⟩,
  ⟨409, "PWMCON1", 0xD0FF, false⟩,
  ⟨416, "T2CON", 0x01FF, false⟩,
  ⟨417, "T3CON", 0x07FF, true⟩,
  ⟨418, "T4CON", 0x01FF, false⟩,
  ⟨419, "T5CON", 0xF1DF, false⟩,
  ⟨420, "T6CON", 0x87FF, true⟩,
  ⟨424, "T01CON", 0x4F4F, false⟩,
  ⟨425, "CCM0", 0xFFFF, false⟩,
  ⟨426, "CCM1", 0xFFFF, false⟩,
  ⟨427, "CCM2", 0xFFFF, false⟩]
/-- The register map, part 7 of 8. -/
def sfrTable7 : List SfrRow := [
  ⟨428, "CCM3", 0xFFFF, false⟩,
  ⟨432, "T2IC", 0x00FF, true⟩,
  ⟨433, "T3IC", 0x00FF, true⟩,
  ⟨434, "T4IC", 0x00FF, true⟩,
  ⟨435, "T5IC", 0x00FF, true⟩,
  ⟨436, "T6IC", 0x00FF, true⟩,
  ⟨437, "CRIC", 0x00FF, true⟩,
  ⟨438, "S0TIC", 0x00FF, true⟩,
  ⟨439, "S0RIC", 0x00FF, true⟩,
  ⟨440, "S0EIC", 0x00FF, true⟩,
  ⟨441, "SSCTIC", 0x00FF, true⟩,
  ⟨442, "SSCRIC", 0x00FF, true⟩,
  ⟨443, "SSCEIC", 0x00FF, true⟩,
  ⟨444, "CC0IC", 0x00FF, true⟩,
  ⟨445, "CC1IC", 0x00FF, true⟩,
  ⟨446, "CC2IC", 0x00FF, true⟩,
  ⟨447, "CC3IC", 0x00FF, true⟩,
  ⟨448, "CC4IC", 0x00FF, true⟩,
  ⟨449, "CC5IC", 0x00FF, true⟩,
  ⟨450, "CC6IC", 0x00FF, true⟩,
  ⟨451, "CC7IC", 0x00FF, true⟩,
  ⟨452, "CC8IC", 0x00FF, true⟩,
  ⟨453, "CC9IC", 0x00FF, true⟩,
  ⟨454, "CC10IC", 0x00FF, true⟩,
  ⟨455, "CC11IC", 0x00FF, true⟩,
  ⟨456, "CC12IC", 0x00FF, true⟩]
/-- The register map, part 8 of 8. -/
def sfrTable8 : List SfrRow := [
  ⟨457, "CC13IC", 0x00FF, true⟩,
  ⟨458, "CC14IC", 0x00FF, true⟩,
  ⟨459, "CC15IC", 0x00FF, true⟩,
  ⟨460, "ADCIC", 0x00FF, true⟩,
  ⟨461, "ADEIC", 0x00FF, true⟩,
  ⟨462, "T0IC", 0x00FF, true⟩,
  ⟨463, "T1IC", 0x00FF, true⟩,
  ⟨464, "ADCON", 0xFEBF, true⟩,
  ⟨465, "P5", 0x0000, false⟩,
  ⟨470, "TFR", 0xE08F, true⟩,
  ⟨471, "WDTCON", 0xFF01, false⟩,
  ⟨472, "S0CON", 0xF7FF, true⟩,
  ⟨473, "SSCCON", 0xDF7F, true⟩,
  ⟨480, "P2", 0xFFFF, true⟩,
  ⟨481, "DP2", 0xFFFF, false⟩,
  ⟨482, "P3", 0xBFFF, false⟩,
  ⟨483, "DP3", 0xBFFF, false⟩,
  ⟨484, "P4", 0x00FF, false⟩,
  ⟨485, "DP4", 0x00FF, false⟩,
  ⟨486, "P6", 0x00FF, false⟩,
  ⟨487, "DP6", 0x00FF, false⟩,
  ⟨488, "P7", 0x00FF, true⟩,
  ⟨489, "DP7", 0x00FF, false⟩,
  ⟨490, "P8", 0x00FF, true⟩,
  ⟨491, "DP8", 0x00FF, false⟩]
/-- All registers of the tables R84 and R85, by address. -/
def sfrTable : List SfrRow :=
  sfrTable1 ++ sfrTable2 ++ sfrTable3 ++ sfrTable4 ++ sfrTable5 ++ sfrTable6 ++ sfrTable7 ++ sfrTable8

/-- The row of a register, none where the tables name no register at that address (R87). -/
def Sfr.row? (r : Sfr) : Option SfrRow := sfrTable.find? (fun e => e.num == r.val)

/-- The bits of register `r` that software can write. -/
def Sfr.mask (r : Sfr) : Word := match r.row? with | some e => e.mask | none => 0

/-- Register `r` holds protected bits (R134). -/
def Sfr.isProtected (r : Sfr) : Bool := match r.row? with | some e => e.prot | none => false

/-- P2, P7 and P8: port latches that the CAPCOM and PWM units share, all of whose bits are protected (20_memory.md
R134). -/
def Sfr.isLatchPort (r : Sfr) : Bool := r = Sfr.p2 || r = Sfr.p7 || r = Sfr.p8

/-- The protected bits of a register (20_memory.md R134): xxIR, T3OTL, T6OTL, S0REN, the SSC status, ADST and ADCRQ, the
trap flags, and all bits of P2, P7 and P8. -/
def Sfr.protectedMask (r : Sfr) : Word :=
  if !r.isProtected then 0
  else if r = Sfr.t3con || r = Sfr.t6con then 0x0400
  else if r = Sfr.s0con then 0x0010
  else if r = Sfr.ssccon then 0x1F00
  else if r = Sfr.adcon then 0x0880
  else if r = Sfr.tfr then 0xE08F
  else if r.isLatchPort then 0xFFFF
  else 0x0080

/-- The bits of a register that are not protected: only in these a read-modify-write can lose what the hardware changed
between its read and its write (20_memory.md R134, 41_logical.md R260, 43_bit.md R312). -/
def Sfr.unprotected (r : Sfr) : Word := ~~~r.protectedMask

/-- The result of a software write of `v` over `old` in register `r`: only the implemented, writable bits change
(10_state.md R62 (b)). -/
def Sfr.merge (r : Sfr) (old v : Word) : Word := (old &&& ~~~r.mask) ||| (v &&& r.mask)

end Sys2Proof.Machine
end

