-- ==== Sys2Proof/Machine/Memory.lean ====
section
/-! DEFINITION. The two stores of the machine as plain data: memory, a list of (cell, byte) pairs in one canonical
form, and the file of the peripheral registers. Which cell a physical address names is decided in Ops.lean. -/
namespace Sys2Proof.Machine

/-- The memory: cells with their bytes, cells strictly rising, no entry with the byte an unlisted cell reads as. -/
abbrev Memory := List Host.Cell

/-- What a cell that nothing has written reads as. DESIGN CHOICE, unsafe (log 1): the spec gives no contents of RAM
after power-on (70_reset_and_hazards.md R906) and none of ROM or external memory. -/
def Memory.default : Byte := 0

/-- The byte in cell `k`. -/
def Memory.get : Memory → Nat → Byte
  | [], _ => Memory.default
  | (a, b) :: m, k => if a = k then b else Memory.get m k

/-- `m` with the byte `v`, not the default one, put into cell `k`. -/
def Memory.insert (k : Nat) (v : Byte) : Memory → Memory
  | [] => [(k, v)]
  | (a, b) :: m =>
    if k < a then (k, v) :: (a, b) :: m
    else if a = k then (k, v) :: m
    else (a, b) :: Memory.insert k v m

/-- `m` with `v` in cell `k`. Writing the default byte removes the entry, so equal memories are equal lists. -/
def Memory.set (m : Memory) (k : Nat) (v : Byte) : Memory :=
  if v = Memory.default then m.filter (fun c => c.1 != k) else Memory.insert k v m

/-- The cells of the list rise strictly and lie above `lo`. -/
def Memory.risingFrom : Option Nat → Memory → Bool
  | _, [] => true
  | lo, (a, _) :: m => (match lo with | none => true | some l => l < a) && Memory.risingFrom (some a) m

/-- The canonical form: cells strictly rising, no entry with the default byte. -/
def Memory.wf (m : Memory) : Bool := Memory.risingFrom none m && m.all (fun c => c.2 != Memory.default)

/-- The little endian word at the cells `k`, `k + 1` (20_memory.md R101). -/
def Memory.getWord (m : Memory) (k : Nat) : Word := (m.get (k + 1)) ++ (m.get k)

/-- `m` with the word `v` at the cells `k`, `k + 1`, low byte first (R101). -/
def Memory.setWord (m : Memory) (k : Nat) (v : Word) : Memory :=
  (m.set k (v.setWidth 8)).set (k + 1) (v.extractLsb' 8 8)

/-- The values of the peripheral registers: 16 blocks of 32 words, by register number. Words without a register
hold 0000h and are reached by no access. The registers of the CPU core are fields of their own (`Core`). -/
abbrev SfrFile := Vector (Vector Word 32) 16

/-- The value of register `r`. -/
def SfrFile.get (f : SfrFile) (r : Sfr) : Word := (f[r.val / 32]'(by omega))[r.val % 32]'(by omega)

/-- The file with `v` in register `r`. -/
def SfrFile.set (f : SfrFile) (r : Sfr) (v : Word) : SfrFile :=
  Vector.set f (r.val / 32) (Vector.set (f[r.val / 32]'(by omega)) (r.val % 32) v (by omega)) (by omega)

/-- All registers 0000h. -/
def SfrFile.zero : SfrFile := Vector.replicate 16 (Vector.replicate 32 0)

end Sys2Proof.Machine
end

