-- ==== Sys2Proof/Machine/State.lean ====
section
/-! DEFINITION. The state of the C167 as plain data: the CPU core, the hidden CPU state of 10_state.md R63, the
peripheral registers and latches, memory, the environment at the pins, and the model's own counter of free values.
INVENTORY.md lists every field with the rule that names it and its reset value. -/
namespace Sys2Proof.Machine

/-- Why the machine stops with a fault: an address at which the spec says there is nothing. Both are safe: the model
stops where the hardware does something the spec does not give. -/
inductive Fault
  /-- an SFR or ESFR address that holds no register (11_sfr_map.md R87, U9); raised by the data accesses of Ops.lean -/
  | noRegister (addr : Nat)
  /-- the reserved areas 00'F000h..00'F01Eh and 00'F200h..00'F5FFh (R89, R109, U10, U13); raised by Ops.lean -/
  | reservedArea (addr : Nat)
deriving DecidableEq, Repr

/-- Why a step is refused: a behaviour the spec calls undefined, unpredictable or reserved and gives no effect. All
are safe: nothing is claimed of what follows. -/
inductive Refusal
  /-- an instruction without a meaning yet; only in Dispatch.lean -/
  | notModelled (mnemonic : String)
  /-- reserved bits inside a defined instruction encoding (30_encoding.md R178, D12); raised by the fetch -/
  | reservedEncoding
  /-- GPR outside the internal RAM (10_state.md R25, U3); raised by every GPR access -/
  | gprOutsideIram
  /-- sequential execution out of a segment or memory area (R29, R103, U5); raised by the fetch -/
  | sequentialCrossing
  /-- stack access with the reserved STKSZ 101b or 110b (R47, U6) -/
  | reservedStackSize
  /-- stack access outside the internal RAM (R55, U7) -/
  | stackOutsideIram
  /-- data write to the mapped internal ROM (20_memory.md R107, U12) -/
  | romWrite
  /-- access to the internal ROM area beyond the implemented ROM or on a ROMless part (R107, U15) -/
  | romAbsent
  /-- instruction fetch from the SFR or ESFR area (R110, U16) -/
  | fetchFromSfr
  /-- an instruction other than a multiply or divide at the return address after RETI with MULIP = 1
  (40_arithmetic.md R245, U20); raised by the step -/
  | resumeMulDiv
  /-- UNDOPC, PRTFLT or ILLINA while the class B trap cannot be entered (60_exceptions.md R547, U21) -/
  | heldClassBTrap
  /-- two enabled pending requests on one level and group (R511, U22) -/
  | samePriority
  /-- write to a port latch that carries the external bus (61_peripherals_a.md R606, U24) -/
  | busPortWrite
  /-- an enabled address window with RGSZ = 11xx (R623, U25) -/
  | reservedWindow
  /-- an access that matches two windows without a defined order (R630, U26) -/
  | overlappingWindows
  /-- instruction fetch from the internal ROM area in bootstrap loader mode: the Boot-ROM (R662, U28) -/
  | bootRom
  /-- a unit started with a reserved mode value (R683, R687, R720, R741, U29) -/
  | reservedMode
  /-- the automatic reset of the SSC on a baud rate error (R749, U31) -/
  | sscAutoReset
  /-- channel injection without wait for read mode (63_peripherals_c.md R829, U32) -/
  | adcInjectionMode
  /-- start of a conversion with ADCTC = 01 (R832, U33) -/
  | adcReservedClock
  /-- CAN test mode bit written 1 (64_can.md R864, U36) -/
  | canTestMode
  /-- INIT cleared with TSEG1 < 2 or TSEG2 < 1 (R868, U39) -/
  | canBitTiming
  /-- a reserved PORT0 pin low, emulation or adapt mode at a hardware reset (70_reset_and_hazards.md R905, R912, U43, D5) -/
  | resetConfiguration
  /-- fetch of a location stored to since the last taken branch, or held in the jump cache (20_memory.md R154, D11) -/
  | selfModifiedCode
deriving DecidableEq, Repr

/-- The registers of the CPU core (10_state.md R20) and the trap flag register. ZEROS and ONES are constants and have
no storage; the GPRs are words of the internal RAM at CP (R21). -/
structure Core where
  ip : Word
  csp : Byte
  psw : Word
  cp : Word
  sp : Word
  stkov : Word
  stkun : Word
  dpp : Vector Word 4
  mdh : Word
  mdl : Word
  mdc : Word
  syscon : Word
  tfr : Word
deriving DecidableEq, Repr

/-- The override of data addresses inside an EXTP / EXTS sequence (49_system.md R460). -/
inductive Override
  | none
  | page (p : BitVec 10)
  | seg (s : Byte)
deriving DecidableEq, Repr

/-- The extension counter with its kind (R460). -/
structure Ext where
  count : Nat
  esfr : Bool
  ovr : Override
deriving DecidableEq, Repr

/-- The registers that give addresses their meaning: SYSCON, BUSCON0..4, ADDRSEL1..4. -/
structure BusMap where
  syscon : Word
  buscon : Vector Word 5
  addrsel : Vector Word 4
deriving DecidableEq, Repr

/-- A change of the mapping by SYSCON, BUSCONx or ADDRSELx: the old and the new one, and the areas of the change that an
absolute branch has reached since, each by the kinds of memory there under the two (70_reset_and_hazards.md R925, R927). -/
structure MapChange where
  old : BusMap
  new : BusMap
  entered : List (Nat × Nat)
deriving DecidableEq, Repr

/-- A write of a peripheral register by software in the current step: the register, the word that it held then, the bits
that software wrote (a change that the hardware makes in the same state is lost there, 10_state.md R62 (c), 20_memory.md
R135), and, for a read-modify-write, the bits in which a change since the read is lost (R134, 43_bit.md R312). -/
structure SfrWrite where
  reg : Sfr
  word : Word
  same : Word
  lost : Word
deriving DecidableEq, Repr

/-- The values that the last instruction replaced and that its successor may still see (70_reset_and_hazards.md
R921 to R927). -/
structure Lag where
  cp : Option Word
  dpp : Vector (Option Word) 4
  sp : Option Word
  map : Option BusMap
  /-- direction registers with their old values (`dp_pending`, R926) -/
  dp : List (Sfr × Word)
deriving DecidableEq, Repr

/-- Running, idle, power down (49_system.md R452, R453), or waiting in the bootstrap loader (61_peripherals_a.md R661). -/
inductive CpuState
  | running
  | idle
  | powerDown
  | bootLoader
deriving DecidableEq, Repr

/-- Reset sources (70_reset_and_hazards.md R900); the hardware reset says whether it is a power-on. -/
inductive ResetSource
  | hardware (powerOn : Bool)
  | software
  | watchdog
deriving DecidableEq, Repr

/-- The arbitration history `psw_hist` (R924): IEN and ILVL before the last software write to PSW, and its age. -/
structure PswHist where
  ien : Bool
  ilvl : BitVec 4
  age : Nat
deriving DecidableEq, Repr

/-- The multiply and divide instructions (40_arithmetic.md R229 to R234). -/
inductive MulOp
  | mul
  | mulu
  | div
  | divu
  | divl
  | divlu
deriving DecidableEq, Repr

/-- A multiply or divide with the GPRs it names; a division names one. -/
structure MulInstr where
  op : MulOp
  rn : Gpr
  rm : Gpr
deriving DecidableEq, Repr

/-- An interrupted multiply or divide (R245): the instruction and where it stands, MDH and MDL when it started, the
values of the two GPRs it names, and the intermediate state K left in MDH, MDL, MDC. -/
structure MulFrame where
  instr : MulInstr
  addr : Nat
  mdh : Word
  mdl : Word
  opA : Word
  opB : Word
  kMdh : Word
  kMdl : Word
  kMdc : Word
  /-- a hardware trap was entered between the RETI that was to resume it and the instruction itself (log 11) -/
  held : Bool
deriving DecidableEq, Repr

/-- The hidden state of the CPU (10_state.md R63). -/
structure Sys where
  ext : Ext
  /-- trap request bits, in the bit positions of TFR (60_exceptions.md R550) -/
  treq : Word
  inA : Bool
  inB : Bool
  /-- instructions until a stack trap of ADD / SUB on SP may be entered (R555, R556) -/
  deferred : Nat
  /-- instructions since RETI during which arbitration is delayed (R546) -/
  retiDelay : Nat
  /-- a round of prioritisation has been served at this boundary (R501) -/
  roundDone : Bool
  pswHist : Option PswHist
  einitDone : Bool
  diswdtOpen : Bool
  wdtDisabled : Bool
  wdtPre : Nat
  cpu : CpuState
  bslMode : Bool
  /-- IDLE was part of a locked sequence (49_system.md R452 (f)) -/
  idleLocked : Bool
  /-- a falling edge on pin NMI that no trap has answered yet (60_exceptions.md R552) -/
  nmiEdge : Bool
  /-- HLDEN was set once (61_peripherals_a.md R640) -/
  hldenOnce : Bool
  /-- the bus is granted to another master (R640) -/
  hold : Bool
  /-- level of pin RSTOUT (R909) -/
  rstout : Bool
  resetReq : Option ResetSource
  /-- the instruction just executed crossed the end of its segment or memory area (R29) -/
  crossed : Bool
  lag : Lag
  lagNext : Lag
  /-- changes of the mapping; fetches in an area of a change may use the old mapping until an absolute branch to that area
  (R925, R927) -/
  oldMaps : List MapChange
  /-- cells stored to since the last taken branch (R154) -/
  stored : List Nat
  /-- jump cache: address of the cached jump and of its target (R931) -/
  jumpCache : Option (Nat × Nat)
  /-- cells stored to since the jump cache was filled (R931, D11) -/
  cacheStored : List Nat
  /-- a branch has been taken in this step: what was fetched ahead is gone -/
  flushed : Bool
  /-- that branch was a cache jump whose target instruction the jump cache holds (R931) -/
  cacheHit : Bool
  suspended : List MulFrame
  /-- RETI found MULIP set: the next instruction is the interrupted multiply or divide (R436) -/
  resume : Bool
  /-- the write of a peripheral register by the instruction whose clocks are still to pass (20_memory.md R133 to R135) -/
  wrote : Option SfrWrite
  /-- the last instruction waits for the external bus (61_peripherals_a.md R628, R640) and starts again -/
  waiting : Bool
  /-- a PEC transfer waits for the external bus (R628): its request and channel -/
  pecWait : Option (Sfr × Fin 8)
  /-- levels of Port 2 at the previous CPU clock, for the fast external interrupts (60_exceptions.md R571) -/
  exPrev : Option Word
deriving DecidableEq, Repr

/-- Latches of GPT1 and GPT2: the pin samples of the previous tick, none before the first (62_peripherals_b.md R694, R709). -/
structure Gpt where
  t2in : Option Bool
  t3in : Option Bool
  t4in : Option Bool
  t5in : Option Bool
  t6in : Option Bool
  capin : Option Bool
  /-- timer registers written by software since the unit's last tick: the write has priority (R680, R694) -/
  written : List Sfr
deriving DecidableEq, Repr

/-- State of the ASC0 receiver (R725). -/
inductive AscRx
  | idle
  /-- receiving: baud pulses since the start of the current bit, high samples of its middle, bits so far (newest first) -/
  | frame (pulses : Nat) (votes : Nat) (bits : List Bool)
deriving DecidableEq, Repr

/-- Latches of the ASC0 (R722, R728). -/
structure Asc where
  tbufFull : Bool
  /-- bits still to be sent, the one on the line first; empty when idle -/
  txBits : List Bool
  /-- baud pulses of the current bit already spent; 4 while a synchronous frame waits for its first baud pulse (R730) -/
  txPulses : Nat
  /-- the free-running divide-by-16 counter -/
  div16 : Nat
  rbufUnread : Bool
  rx : AscRx
  /-- the last sample of the receiver's input, none before the first one under S0R = 1 (R725) -/
  rxPrev : Option Bool
  /-- the 13-bit baud rate timer, its divide-by-2 and the 2/3 divider of S0BRS -/
  baud : Word
  baudDiv : Nat
  brsPhase : Nat
  /-- S0BG was written while S0R = 0: reload when S0R is set (R728) -/
  reloadDue : Bool
deriving DecidableEq, Repr

/-- Latches of the SSC (R741 to R749). The control set of SSCCON is the register itself, the status set is here. -/
structure Ssc where
  /-- SSCBSY, SSCBE, SSCPE, SSCRE, SSCTE in bits 12 to 8, SSCBC in bits 3 to 0 -/
  status : Word
  tbFull : Bool
  rbUnread : Bool
  shift : Word
  /-- bits still to be shifted in the running transfer, 0 when none -/
  left : Nat
  /-- the shift register holds data loaded from SSCTB and not yet started (slave) -/
  loaded : Bool
  /-- the bit last put on the transmit line -/
  outBit : Bool
  /-- clock line: second half of the current bit -/
  half : Bool
  baud : Word
  baudDiv : Nat
  sclkPrev : Option Bool
  /-- samples of the receive line, newest first -/
  samples : List Bool
  /-- for each latching edge whose following samples are still awaited, the clocks since it (R747) -/
  sinceLatch : List Nat
  /-- CPU clocks since the last leading edge of the slave clock -/
  sinceEdge : Nat
  /-- a baud rate error happened with SSCAREN = 1 (U31) -/
  autoReset : Bool
deriving DecidableEq, Repr

/-- Latches of the CAPCOM units (63_peripherals_c.md R776); timers in the order T0, T1, T7, T8. -/
structure Capcom where
  changed : Vector Bool 4
  done : Vector Bool 32
  prev : Vector (Option Bool) 32
  t0in : Option Bool
  t7in : Option Bool
  t6Pulse : Bool
  /-- latch bits of P2, P7 and P8 written by software since the last step: the write wins (R777) -/
  latchWritten : Vector Word 3
deriving DecidableEq, Repr

/-- Shadow latches and count direction of the PWM channels (R801). -/
structure Pwm where
  pps : Vector Word 4
  pws : Vector Word 4
  down : Vector Bool 4
  /-- PTx was written by software since the last clock: the write has priority (R680, R810) -/
  written : Vector Bool 4
deriving DecidableEq, Repr

/-- What the A/D converter does (R834). -/
inductive AdcPhase
  | idle
  | standard
  | injected
  | suspended
deriving DecidableEq, Repr

/-- Hidden state of the A/D converter (R834). -/
structure Adc where
  phase : AdcPhase
  cur : BitVec 4
  left : Nat
  sample : BitVec 10
  seqMode : BitVec 2
  seqStart : BitVec 4
  /-- channel of the last standard conversion (R835) -/
  lastStd : BitVec 4
  addatFull : Bool
  addat2Full : Bool
  /-- the temporary buffer: true for ADDAT2, with its value -/
  tmp : Option (Bool × Word)
  /-- the suspended conversion was an injected one -/
  afterInj : Bool
  stopReq : Bool
  /-- CPU clocks left of the sample phase (R832) -/
  sampleLeft : Nat
  /-- a conversion was started with the reserved ADCTC = 01 (U33) -/
  badClock : Bool
  /-- the bits of ADCON that software has written since the last clock and that the hardware changes too, ADST and ADCRQ:
  the write has priority (10_state.md R62 (c), R822) -/
  written : Word
deriving DecidableEq, Repr

/-- A CAN frame as the environment delivers it (64_can.md R885). -/
structure CanFrame where
  ide : Bool
  rtr : Bool
  id : BitVec 29
  dlc : BitVec 4
  data : Vector Byte 8
deriving DecidableEq, Repr

/-- The CAN module: its 256 bytes of registers and message objects and its hidden state (R863, R884). -/
structure Can where
  ram : Vector Byte 256
  recCount : Nat
  tecCount : Nat
  busoff : Bool
  statusInt : Bool
  linePrev : Bool
  txObj : Option (Fin 16)
  /-- the data or remote frame being sent (R885) -/
  txFrame : Option CanFrame
  /-- another bus master wrote what the spec does not define (U36, U39): the next step is refused -/
  badWrite : Option Refusal
  /-- second buffer of object 15 (R876) -/
  obj15 : Option CanFrame
deriving DecidableEq, Repr

/-- What one access over the external bus or the XBUS, a data access or a fetch, leaves on the lines of the bus controller
(61_peripherals_a.md R635). Nothing but the next access changes it, no write to BUSCONx or ADDRSELx either. -/
structure BusLines where
  /-- the address -/
  addr : Addr
  /-- number and contents of the BUSCONx that governed the access, none for an X-Peripheral -/
  window : Option (Fin 5 × Word)
  /-- level of BHE -/
  bhe : Bool
deriving DecidableEq, Repr

/-- The external bus controller: what the last access left on its lines (61_peripherals_a.md R635), how far the fetches have
run ahead, and what it last wrote. -/
structure Bus where
  lines : BusLines
  /-- the offset in the code segment from which `fetched` counts -/
  fetchAt : Word
  /-- code bytes that have been fetched from there on (20_memory.md R151, R154, D10) -/
  fetched : Nat
  /-- the last external write: its step, and its cells with the bytes they held before (70_reset_and_hazards.md R901,
  U41) -/
  undo : Option (Nat × List (Nat × Byte))
  /-- what the bus cycle that waits for READY would write -/
  pending : List (Nat × Byte)
deriving DecidableEq, Repr

/-- The input ports and dedicated pins as the environment drives them. -/
inductive PinGroup
  | p0l | p0h | p1l | p1h | p2 | p3 | p4 | p5 | p6 | p7 | p8
deriving DecidableEq, Repr

/-- What the outside world does (92_eei_decisions.md D3, D9, D32, D35). -/
inductive EnvEvent
  /-- new levels on the pins of a port -/
  | pins (p : PinGroup) (levels : Word)
  | nmi (level : Bool)
  | ready (level : Bool)
  /-- RSTIN low (R904) -/
  | rstin (powerOn : Bool)
  /-- the levels that a later reset samples on EA and PORT0 -/
  | strap (ea : Bool) (port0 : Word)
  | analog (ch : Fin 16) (value : BitVec 10)
  | pllUnlock
  /-- a device or another bus master changes a byte of the external memory behind a chip select: 0 for none, x + 1 for
  CSx (61_peripherals_a.md R625) -/
  | extWrite (cs : Fin 6) (addr : Addr) (v : Byte)
  /-- in hold mode with XPER-SHARE another master writes a byte of an X-Peripheral: XRAM or CAN module (R113, R152,
  R640) -/
  | xbusWrite (addr : Addr) (v : Byte)
  /-- another master reads a byte of an X-Peripheral -/
  | xbusRead (addr : Addr)
  /-- a frame without error, with the new receive and transmit error counts (R885 `RxFrame`, R866) -/
  | canRx (f : CanFrame) (rec tec : Nat)
  /-- the pending frame was transmitted, with the new error counts (R885 `TxDone`, R866) -/
  | canTxDone (rec tec : Nat)
  /-- an error of a LEC code, with the new error counts (R885 `BusError`) -/
  | canError (code : BitVec 3) (rec tec : Nat)
  /-- a sequence of 11 recessive bits was monitored on the CAN bus (64_can.md R864) -/
  | canRecessive
  | canRecovered
  /-- the host completes the bootstrap protocol with its 32 bytes at the baud rate reload value (R661) -/
  | boot (bytes : Vector Byte 32) (brl : Word)
deriving DecidableEq, Repr

/-- The environment: the derivative, the levels at the pins, and what happens next, each with the CPU clocks that pass
before it. -/
structure Env where
  device : Device
  p0l : Word
  p0h : Word
  p1l : Word
  p1h : Word
  p2 : Word
  p3 : Word
  p4 : Word
  p5 : Word
  p6 : Word
  p7 : Word
  p8 : Word
  nmi : Bool
  /-- READY line: true when a bus cycle is being terminated -/
  ready : Bool
  ea : Bool
  port0 : Word
  analog : Vector (BitVec 10) 16
  inbox : List (Nat × EnvEvent)
deriving DecidableEq, Repr

/-- The whole machine. -/
structure State where
  core : Core
  sys : Sys
  /-- the peripheral registers -/
  sfr : SfrFile
  mem : Memory
  gpt : Gpt
  asc : Asc
  ssc : Ssc
  capcom : Capcom
  pwm : Pwm
  adc : Adc
  can : Can
  bus : Bus
  /-- CPU clocks since reset: the phase of every prescaler (62_peripherals_b.md R685, D23) -/
  clock : Nat
  env : Env
  /-- the model's own counter: the step whose free values are next -/
  free : Nat
deriving DecidableEq, Repr

/-- No value replaced. -/
def Lag.none : Lag := { cp := .none, dpp := Vector.replicate 4 .none, sp := .none, map := .none, dp := [] }

/-- The environment at reset: DESIGN CHOICE (log 2), a C167CR-16RM started from external memory, every pin open or at
its inactive level: pin P6.5, the HOLD input, is high. -/
def Env.reset : Env where
  device := Config.c167cr16rm
  p0l := 0xFF
  p0h := 0xFF
  p1l := 0
  p1h := 0
  p2 := 0
  p3 := 0
  p4 := 0
  p5 := 0
  p6 := 0x20
  p7 := 0
  p8 := 0
  nmi := true
  ready := true
  ea := false
  port0 := 0xFFFF
  analog := Vector.replicate 16 0
  inbox := []

/-- The core registers after reset (10_state.md R64), with SYSCON from the pins (R911). -/
def Core.reset (syscon : Word) : Core where
  ip := 0
  csp := 0
  psw := 0
  cp := 0xFC00
  sp := 0xFC00
  stkov := 0xFA00
  stkun := 0xFC00
  dpp := #v[0, 1, 2, 3]
  mdh := 0
  mdl := 0
  mdc := 0
  syscon := syscon
  tfr := 0

/-- The hidden CPU state after reset (R63, R903 (d)). -/
def Sys.reset : Sys where
  ext := { count := 0, esfr := false, ovr := .none }
  treq := 0
  inA := false
  inB := false
  deferred := 0
  retiDelay := 0
  roundDone := false
  pswHist := none
  einitDone := false
  diswdtOpen := true
  wdtDisabled := false
  wdtPre := 0
  cpu := .running
  bslMode := false
  idleLocked := false
  nmiEdge := false
  hldenOnce := false
  hold := false
  rstout := false
  resetReq := none
  crossed := false
  lag := Lag.none
  lagNext := Lag.none
  oldMaps := []
  stored := []
  jumpCache := none
  cacheStored := []
  flushed := false
  cacheHit := false
  suspended := []
  resume := false
  wrote := none
  waiting := false
  pecWait := none
  exPrev := none

/-- No pin sampled yet. -/
def Gpt.reset : Gpt where
  t2in := none
  t3in := none
  t4in := none
  t5in := none
  t6in := none
  capin := none
  written := []

/-- The ASC0 after reset: idle, lines high (62_peripherals_b.md R722). -/
def Asc.reset : Asc where
  tbufFull := false
  txBits := []
  txPulses := 0
  div16 := 0
  rbufUnread := false
  rx := .idle
  rxPrev := none
  baud := 0
  baudDiv := 0
  brsPhase := 0
  reloadDue := false

/-- The SSC after reset: disabled, lines high (R745). -/
def Ssc.reset : Ssc where
  status := 0
  tbFull := false
  rbUnread := false
  shift := 0
  left := 0
  loaded := false
  outBit := true
  half := false
  baud := 0
  baudDiv := 0
  sclkPrev := none
  samples := []
  sinceLatch := []
  sinceEdge := 0
  autoReset := false

/-- The CAPCOM latches after reset (63_peripherals_c.md R776). -/
def Capcom.reset : Capcom where
  changed := Vector.replicate 4 false
  done := Vector.replicate 32 false
  prev := Vector.replicate 32 none
  t0in := none
  t7in := none
  t6Pulse := false
  latchWritten := Vector.replicate 3 0

/-- The PWM latches after reset (R801). -/
def Pwm.reset : Pwm :=
  { pps := Vector.replicate 4 0, pws := Vector.replicate 4 0, down := Vector.replicate 4 false,
    written := Vector.replicate 4 false }

/-- The converter after reset (R834). -/
def Adc.reset : Adc where
  phase := .idle
  cur := 0
  left := 0
  sample := 0
  seqMode := 0
  seqStart := 0
  lastStd := 0
  addatFull := false
  addat2Full := false
  tmp := none
  afterInj := false
  stopReq := false
  sampleLeft := 0
  badClock := false
  written := 0

/-- The hidden CAN state after a reset (64_can.md R880), with the registers `ram`. -/
def Can.reset (ram : Vector Byte 256) : Can where
  ram := ram
  recCount := 0
  tecCount := 0
  busoff := false
  statusInt := false
  linePrev := false
  txObj := none
  txFrame := none
  badWrite := none
  obj15 := none

/-- The bus lines after a reset with the given BUSCON0: address 0; the window of BUSCON0 with its chip select CS0 if the
chip starts from external memory (70_reset_and_hazards.md R909); BHE inactive (log 48). -/
def Bus.reset (buscon0 : Word) : Bus where
  lines := { addr := 0, window := if buscon0.getLsbD 10 then some (0, buscon0) else none, bhe := true }
  fetchAt := 0
  fetched := 0
  undo := none
  pending := []

/-- The peripheral registers after reset with the given RP0H, BUSCON0 and WDTCON: all 0000h but these (11_sfr_map.md
R93, 70_reset_and_hazards.md R908). -/
def SfrFile.reset (rp0h buscon0 wdtcon : Word) : SfrFile :=
  ((SfrFile.zero.set Sfr.rp0h rp0h).set (Sfr.buscon 0) buscon0).set Sfr.wdtcon wdtcon

/-- The machine right after reset: the hardware reset of `Env.reset` (R915 (b): RP0H = 00FFh, SYSCON = 0000h,
BUSCON0 = 06C0h), memory with nothing listed. CAN registers that the spec leaves undefined hold 00h but for the
bits it fixes (log 3): INIT is set, and with it NEWDAT and RMTPND of object 15 are reset (64_can.md R881). -/
def State.reset : State where
  core := Core.reset 0
  sys := Sys.reset
  sfr := SfrFile.reset 0xFF 0x06C0 0
  mem := []
  gpt := Gpt.reset
  asc := Asc.reset
  ssc := Ssc.reset
  capcom := Capcom.reset
  pwm := Pwm.reset
  adc := Adc.reset
  can := Can.reset (((Vector.replicate 256 0).set 0 1).set 0xF1 0x41)
  bus := Bus.reset 0x06C0
  clock := 0
  env := Env.reset
  free := 0

end Sys2Proof.Machine
end

