-- ==== Sys2Proof/Machine/Ebc.lean ====
section
/-! DEFINITION. Which area answers at a physical address (20_memory.md R106), the address windows of the external bus
controller (61_peripherals_a.md R630 to R633), and the memory cells behind an address. -/
namespace Sys2Proof.Machine

/-- What answers at a physical address. -/
inductive Area
  | iram
  | xram
  /-- internal ROM, with the offset in it -/
  | rom (off : Nat)
  | romAbsent
  /-- a word of the SFR or ESFR area -/
  | sfr (r : Sfr)
  | reserved
  | can (off : Fin 256)
  /-- external memory through BUSCONx -/
  | ext (x : Nat)
  /-- no BUSCONx with BUSACTx = 1 covers the address: ILLBUS (R633) -/
  | noBus
  /-- a window with RGSZ = 11xx is enabled (U25) -/
  | badWindow
  /-- two windows without a defined order match (U26) -/
  | overlap
deriving DecidableEq, Repr

/-- The current SYSCON, BUSCONx and ADDRSELx. -/
def State.busMap (s : State) : BusMap where
  syscon := s.core.syscon
  buscon := Vector.ofFn (fun n => s.sfr.get (Sfr.buscon n))
  addrsel := Vector.ofFn (fun n => s.sfr.get (Sfr.addrsel n))

/-- BUSACTx of BUSCONx (R622). -/
def BusMap.active (m : BusMap) (x : Fin 5) : Bool := wbit m.buscon[x.val] 10

/-- RGSZ of ADDRSELx, x = 1..4 (R623). -/
def BusMap.rgsz (m : BusMap) (x : Fin 4) : Nat := fieldNat m.addrsel[x.val] 0 4

/-- Window x + 1 is enabled and covers the address (R631, D21). -/
def BusMap.matches (m : BusMap) (x : Fin 4) (a : Addr) : Bool :=
  m.active ⟨x.val + 1, by omega⟩ &&
  decide (a.toNat / 2 ^ (12 + m.rgsz x) = fieldNat m.addrsel[x.val] 4 12 * 4096 / 2 ^ (12 + m.rgsz x))

/-- Some enabled window has the reserved size RGSZ = 11xx. -/
def BusMap.hasReserved (m : BusMap) : Bool :=
  (List.finRange 4).any (fun x => m.active ⟨x.val + 1, by omega⟩ && decide (12 ≤ m.rgsz x))

/-- The window that governs an external address (R630). -/
def BusMap.window (m : BusMap) (a : Addr) : Area :=
  if m.hasReserved then .badWindow
  else
    let m1 := m.matches 0 a
    let m2 := m.matches 1 a
    let m3 := m.matches 2 a
    let m4 := m.matches 3 a
    if (m2 && m4) || (m1 && m3) || (m4 && m1) || (m2 && m3) then .overlap
    else if m2 then .ext 2
    else if m4 then .ext 4
    else if m1 then .ext 1
    else if m3 then .ext 3
    else if m.active 0 then .ext 0
    else .noBus

/-- The SFR or ESFR word at a 16-bit address of segment 0 (R80). -/
def sfrAt (a : Nat) : Option Sfr :=
  if h : 0xF000 ≤ a ∧ a < 0xF200 then some ⟨(a - 0xF000) / 2, by omega⟩
  else if h : 0xFE00 ≤ a ∧ a < 0x10000 then some ⟨256 + (a - 0xFE00) / 2, by omega⟩
  else none

/-- The internal ROM at an address, if the ROM area is mapped there (R107). -/
def romAt (dev : Device) (syscon : Word) (a : Nat) : Option Area :=
  if wbit syscon 10 then
    let base := if wbit syscon 12 then 0x10000 else 0
    if base ≤ a ∧ a < base + 0x8000 then
      some (if a - base < dev.romSize then .rom (a - base) else .romAbsent)
    else if 0x18000 ≤ a ∧ a < 0x10000 + dev.romSize then some (.rom (a - 0x10000))
    else none
  else none

/-- The area of a physical address, in the priority order of R106. -/
def areaOf (dev : Device) (m : BusMap) (a : Addr) : Area :=
  let n := a.toNat
  match sfrAt n with
  | some r => .sfr r
  | none =>
    if 0xF600 ≤ n ∧ n < 0xFE00 then .iram
    else if 0xF200 ≤ n ∧ n < 0xF600 then .reserved
    else
      match romAt dev m.syscon n with
      | some r => r
      | none =>
        if dev.hasCan && wbit m.syscon 2 && decide (0xEF00 ≤ n ∧ n < 0xF000) then
          .can ⟨n % 256, Nat.mod_lt _ (by omega)⟩
        else if dev.hasXram && wbit m.syscon 2 && decide (0xE000 ≤ n ∧ n < 0xE800) then .xram
        else m.window a

/-- The cell of an internal RAM address. -/
def iramCell (a : Nat) : Nat := 0x1000000 + a

/-- The cell of an XRAM address. -/
def xramCell (a : Nat) : Nat := 0x2000000 + a

/-- The cell of an offset in the internal ROM. -/
def romCell (off : Nat) : Nat := 0x3000000 + off

/-- Segment address lines selected at reset: SALSEL in RP0H (R626). -/
def segLines (rp0h : Word) : Nat :=
  match fieldNat rp0h 3 2 with
  | 0 => 4
  | 1 => 0
  | 2 => 8
  | _ => 2

/-- Chip select lines selected at reset: CSSEL in RP0H (R612, R625). -/
def csLines (rp0h : Word) : Nat :=
  match fieldNat rp0h 1 2 with
  | 0 => 3
  | 1 => 2
  | 2 => 0
  | _ => 5

/-- BUSCONx of a mapping. -/
def BusMap.con (m : BusMap) (x : Nat) : Word := m.buscon[x % 5]'(Nat.mod_lt _ (by omega))

/-- The chip select that is active in a read or write through BUSCONx of the mapping `m`, 0 for none and y + 1 for CSy: the
line of the window, if it is selected and its mode covers the direction (R625). -/
def State.activeCs (s : State) (m : BusMap) (x : Nat) (wr : Bool) : Nat :=
  let con := m.con x
  let covers := (!wbit con 14 && !wbit con 15) || wbit con (if wr then 15 else 14)
  if x % 5 < csLines (s.sfr.get Sfr.rp0h) && covers then x % 5 + 1 else 0

/-- The cell of the external memory behind a chip select: only the low 16 address bits and the selected segment lines
leave the chip (R115, R626). DESIGN CHOICE (log 4): what stands behind a chip select, and what stands behind none, is
memory of its own. -/
def State.csCell (s : State) (cs : Nat) (a : Addr) : Nat :=
  (if cs = 0 then 0 else (15 + cs) * 0x1000000) + a.toNat % 2 ^ (16 + segLines (s.sfr.get Sfr.rp0h))

/-- The cell of an external address reached through BUSCONx of the mapping `m` (R626, R633). -/
def State.extCell (s : State) (m : BusMap) (x : Nat) (wr : Bool) (a : Addr) : Nat := s.csCell (s.activeCs m x wr) a

/-- The kind of memory a code address lies in, as far as sequential execution distinguishes it (10_state.md R29). -/
def codeRegion (dev : Device) (syscon : Word) (a : Addr) : Nat :=
  let n := a.toNat
  if 0xF000 ≤ n ∧ n < 0x10000 then (if 0xF600 ≤ n ∧ n < 0xFE00 then 1 else 0)
  else
    match romAt dev syscon n with
    | some _ => 2
    | none =>
      if dev.hasXram && wbit syscon 2 && decide (0xE000 ≤ n ∧ n < 0xE800) then 3
      else if dev.hasCan && wbit syscon 2 && decide (0xEF00 ≤ n ∧ n < 0xF000) then 4
      else 5

/-- An external bus cycle through BUSCONx of the mapping `m` cannot complete now: the bus is granted to another master
(R640), or the window waits for READY (R628). -/
def State.busBlocked (s : State) (m : BusMap) (x : Nat) : Bool := s.sys.hold || (wbit (m.con x) 12 && !s.env.ready)

/-- The external bus interface is enabled: some BUSACT is set (R633). -/
def State.busEnabled (s : State) : Bool := (List.finRange 5).any (fun x => wbit (s.sfr.get (Sfr.buscon x)) 10)

/-- PORT0 carries the external bus: some BUSACT is set (R606). P0H stays free while every enabled bus is 8-bit
demultiplexed. -/
def State.busUsesP0 (s : State) (high : Bool) : Bool :=
  (List.finRange 5).any (fun x =>
    let b := s.sfr.get (Sfr.buscon x)
    wbit b 10 && (!high || fieldNat b 6 2 != 0))

/-- PORT1 outputs the address: some enabled BUSCONx selects a demultiplexed bus (R607, R621). -/
def State.busUsesP1 (s : State) : Bool :=
  (List.finRange 5).any (fun x =>
    let b := s.sfr.get (Sfr.buscon x)
    wbit b 10 && !wbit b 6)

/-- BUSCONx of the mapping selects an 8-bit data bus (R621). -/
def BusMap.narrow (m : BusMap) (x : Nat) : Bool := !wbit (m.con x) 7

/-- The bus lines that an access in an area under the mapping `m` leaves: an external one through its window or one of an
X-Peripheral, which deactivates the chip selects, puts its address out; the others leave the bus as it was (R625, R635). A
word access on an 8-bit bus ends with the byte access of the high byte (R634). -/
def busAccess (m : BusMap) (area : Area) (a : Addr) (word : Bool) : Option BusLines :=
  let bhe := !word && decide (a.toNat % 2 = 0)
  match area with
  | .ext x =>
    some
      { addr := if word && m.narrow x then a ||| 1 else a
        window := some (⟨x % 5, Nat.mod_lt _ (by omega)⟩, m.con x)
        bhe := bhe }
  | .xram | .can _ => some { addr := a, window := none, bhe := bhe }
  | _ => none

/-- A data access: its width, and the bytes it writes, none for a read. -/
structure Access where
  word : Bool
  bytes : List Byte

/-- A read. -/
def Access.read (word : Bool) : Access := { word := word, bytes := [] }

/-- A write of a word, low byte first (20_memory.md R101). -/
def Access.ofWord (v : Word) : Access := { word := true, bytes := [loByte v, hiByte v] }

/-- A write of a byte. -/
def Access.ofByte (v : Byte) : Access := { word := false, bytes := [v] }

/-- The access writes. -/
def Access.writes (c : Access) : Bool := !c.bytes.isEmpty

/-- The cells from `k` on with the bytes written to them. -/
def Access.cells (c : Access) (k : Nat) : List (Nat × Byte) := (List.range c.bytes.length).map (k + ·) |>.zip c.bytes

/-! ## The address of the program counter and the mapping of its fetch -/

/-- The code address of an offset under a mapping: in the segment of CSP, and with SGTDIS = 1, for every fetch, in
segment 0 (10_state.md R31). -/
def State.codeAddr (s : State) (m : BusMap) (ip : Word) : Addr := (if wbit m.syscon 11 then 0#8 else s.core.csp) ++ ip

/-- The address of the current instruction. -/
def State.pcAddr (s : State) : Addr := s.codeAddr s.busMap s.core.ip

/-- The kind of memory of an area. -/
def Area.kind (a : Area) : Nat :=
  match a with
  | .iram => 0
  | .xram => 1
  | .rom _ => 2
  | .romAbsent => 3
  | .sfr _ => 4
  | .reserved => 5
  | .can _ => 6
  | .noBus => 7
  | .badWindow => 8
  | .overlap => 9
  | .ext x => 10 + x

/-- The kinds of memory at an address before and after a change of the mapping. -/
def MapChange.kinds (dev : Device) (c : MapChange) (a : Addr) : Nat × Nat :=
  ((areaOf dev c.old a).kind, (areaOf dev c.new a).kind)

/-- The change altered what answers at an address, or the properties of its window (70_reset_and_hazards.md R925, R927). -/
def MapChange.alters (dev : Device) (c : MapChange) (a : Addr) : Bool :=
  match areaOf dev c.old a, areaOf dev c.new a with
  | .ext x, .ext y => x != y || c.old.con x != c.new.con y
  | p, q => decide (p ≠ q)

/-- Fetches at an address may still use the old mapping: it was altered there, and no absolute branch has reached that area
of the change (R925, R927). -/
def MapChange.open_ (dev : Device) (c : MapChange) (a : Addr) : Bool :=
  c.alters dev a && !c.entered.contains (c.kinds dev a)

/-- The change with the segmentation bit `sgtdis` on both sides: no fetch uses the old segmentation any more. -/
def MapChange.segment (sgtdis : Bool) (c : MapChange) : MapChange :=
  { c with
    old := { c.old with syscon := wset c.old.syscon 11 sgtdis }
    new := { c.new with syscon := wset c.new.syscon 11 sgtdis } }

/-- An absolute branch to an address, with the segmentation bit `sgtdis`: it ends the use of the old mapping in the area
there, and that of the old segmentation (R925, R927). -/
def MapChange.reach (dev : Device) (sgtdis : Bool) (c : MapChange) (a : Addr) : MapChange :=
  { c.segment sgtdis with entered := if c.open_ dev a then c.kinds dev a :: c.entered else c.entered }

/-- A change of the mapping leaves the old one to the fetch at `ip`: the segmentation differs, or one of the words there
lies in an area of the change that no absolute branch has reached (70_reset_and_hazards.md R925, R927). -/
def State.mayFetchOld (s : State) (c : MapChange) (ip : Word) : Bool :=
  wbit c.old.syscon 11 != wbit s.core.syscon 11 ||
    c.open_ s.env.device (s.codeAddr s.busMap ip) || c.open_ s.env.device (s.codeAddr s.busMap (ip + 2))

/-- The mapping that this fetch uses: the current one, or by a free choice an old one that is left to it (R925, R927). -/
def State.fetchMap (s : State) : BusMap :=
  match s.sys.oldMaps.filter (fun c => s.mayFetchOld c s.core.ip) with
  | [] => s.busMap
  | l => (s.busMap :: l.map MapChange.old).getD (Config.freeNat .fetchMap s.free 0) s.busMap

/-- The bus after a data access with the given lines, none where it uses no bus: they stay until the next access (R635). -/
def State.busAfter (s : State) (lines : Option BusLines) : Bus := { s.bus with lines := lines.getD s.bus.lines }

/-- The latches of the ports that the bus uses are loaded by the bus controller (R606, R607): their contents are free
values (log 48). -/
def State.busLatches (s : State) : State :=
  let load := fun (on : Bool) (i : Nat) (r : Sfr) (f : SfrFile) =>
    if on then f.set r (Config.freeWord .busLatch s.free i &&& 0x00FF) else f
  let f := load (s.busUsesP0 true) 1 Sfr.p0h (load (s.busUsesP0 false) 0 Sfr.p0l s.sfr)
  { s with sfr := load s.busUsesP1 3 Sfr.p1h (load s.busUsesP1 2 Sfr.p1l f) }

end Sys2Proof.Machine
end

