-- ==== Sys2Proof/Machine/Ports.lean ====
section
/-! DEFINITION. Registers of the peripherals by name, interrupt requests, and the parallel ports: levels at the pins
and what a port register reads as (61_peripherals_a.md chapter 1). -/
namespace Sys2Proof.Machine

/-- The value of a peripheral register. -/
def State.reg (s : State) (r : Sfr) : Word := s.sfr.get r

/-- `s` with `v` in a peripheral register. -/
def State.setReg (s : State) (r : Sfr) (v : Word) : State := { s with sfr := s.sfr.set r v }

/-- Bit `i` of a peripheral register. -/
def State.regBit (s : State) (r : Sfr) (i : Nat) : Bool := wbit (s.reg r) i

/-- `s` with bit `i` of a peripheral register set to `b`. -/
def State.setRegBit (s : State) (r : Sfr) (i : Nat) (b : Bool) : State := s.setReg r (wset (s.reg r) i b)

/-- A peripheral sets the request flag xxIR, bit 7 of the interrupt control register `ic` (60_exceptions.md R511). -/
def State.request (s : State) (ic : Sfr) : State := s.setRegBit ic 7 true

/-- The hardware changes ADST (7) or ADCRQ (11), unless software has written the bit since the last clock (10_state.md R62
(c), R822; log 16). -/
def State.adcSet (s : State) (i : Nat) (b : Bool) : State :=
  if wbit s.adc.written i then s else s.setRegBit Sfr.adcon i b

/-- The direction register as it works now: a new direction takes effect one instruction after the write
(70_reset_and_hazards.md R926). -/
def State.direction (s : State) (dp : Sfr) : Word :=
  match (s.sys.lag.dp ++ s.sys.lagNext.dp).lookup dp with
  | some old => old
  | none => s.reg dp

/-- The levels of a port: lines with direction 1 are driven with `out`, but a 1 on an open drain line (R602) and the
other lines show what the environment drives. -/
def pinLevels (dir out openDrain env : Word) : Word :=
  (dir &&& out &&& ~~~openDrain) ||| (dir &&& out &&& openDrain &&& env) ||| (~~~dir &&& env)

/-! ## Lines that the hardware takes from software (R604) -/

/-- The lines of a port that are switched automatically: outputs with their levels, and inputs. -/
structure AutoLines where
  out : Word
  level : Word
  inp : Word

/-- Every line is general purpose IO. -/
def AutoLines.none : AutoLines := { out := 0, level := 0, inp := 0 }

/-- `n` output lines from bit 0 up with the levels of `w`. -/
def AutoLines.outputs (n : Nat) (w : Word) : AutoLines := { out := BitVec.ofNat 16 (2 ^ n - 1), level := w, inp := 0 }

/-- `n` floating lines from bit 0 up. -/
def AutoLines.floating (n : Nat) : AutoLines := { out := 0, level := 0, inp := BitVec.ofNat 16 (2 ^ n - 1) }

/-- `a` with line `i` as an output of a level, where `on`. -/
def AutoLines.drive (a : AutoLines) (i : Nat) (on level : Bool) : AutoLines :=
  if on then { out := wset a.out i true, level := wset a.level i level, inp := wset a.inp i false } else a

/-- `a` with line `i` as an input, where `on`. -/
def AutoLines.listen (a : AutoLines) (i : Nat) (on : Bool) : AutoLines :=
  if on then { a with out := wset a.out i false, inp := wset a.inp i true } else a

/-- The levels of a port with automatic lines: their direction bits are disregarded. -/
def AutoLines.pins (a : AutoLines) (dir out openDrain env : Word) : Word :=
  pinLevels ((dir ||| a.out) &&& ~~~a.inp) ((out &&& ~~~a.out) ||| (a.level &&& a.out)) openDrain env

/-- A half of PORT0 while it carries the bus (R606, R670): floating between two cycles; while the CPU stands still P0H
shows A15 to A8 of an 8-bit multiplexed bus. -/
def State.auto0 (s : State) (high : Bool) : AutoLines :=
  if s.busUsesP0 high then
    match s.bus.lines.window with
    | some (_, con) =>
      if high && !s.sys.hold && s.sys.cpu != .running && fieldNat con 6 2 == 1 then
        .outputs 8 ((s.bus.lines.addr.extractLsb' 8 8).setWidth 16)
      else .floating 8
    | none => .floating 8
  else .none

/-- A half of PORT1: the last address of a demultiplexed bus (R607, R635); it floats in hold state (R640). -/
def State.auto1 (s : State) (high : Bool) : AutoLines :=
  if s.busUsesP1 then
    if s.sys.hold then .floating 8
    else .outputs 8 ((s.bus.lines.addr.extractLsb' (if high then 8 else 0) 8).setWidth 16)
  else .none

/-- P3.12 as BHE or WRH, P3.15 as CLKOUT (10_state.md R44, R48, 61_peripherals_a.md R609, R634, R670). WRH is inactive
between two cycles; in hold state P3.12 is general purpose IO. -/
def State.auto3 (s : State) : AutoLines :=
  let bhe := !wbit s.core.syscon 9 && s.busEnabled && !s.sys.hold
  (AutoLines.none.drive 12 bhe (wbit s.core.syscon 7 || s.bus.lines.bhe)).drive 15 (wbit s.core.syscon 8)
    (s.sys.cpu == .powerDown || Config.freeBool .clkout s.free s.clock)

/-- The CAN module is there and enabled by XPEN (10_state.md R44). -/
def State.canOn (s : State) : Bool := s.env.device.hasCan && wbit s.core.syscon 2

/-- The signals of the CAN module are on Port 4: the module is enabled and Port 4 does not output eight segment lines
(64_can.md R882). -/
def State.canOnPort (s : State) : Bool :=
  s.canOn && !(s.busEnabled && segLines (s.reg Sfr.rp0h) == 8)

/-- CAN_TxD: recessive while INIT is set (R880, R881), free while a frame is sent. DESIGN CHOICE (log 63): 1 with INIT = 0
while no frame of its own is sent, so that an acknowledge bit or error flag does not show. -/
def State.canTxd (s : State) : Bool :=
  s.can.txObj.isNone || (s.can.ram[0].getLsbD 0) || Config.freeBool .canLine s.free s.clock

/-- The selected segment address lines of Port 4 (R610, R635). -/
def State.auto4 (s : State) : AutoLines :=
  let n := segLines (s.reg Sfr.rp0h)
  if s.busEnabled then
    if s.sys.hold then .floating n else .outputs n ((s.bus.lines.addr.extractLsb' 16 8).setWidth 16)
  else .none

/-- The alternate data output of Port 4: CAN_TxD on P4.6, 1 where it is unused; it needs DP4.6 = 1 and is ANDed with the
latch (R604, 64_can.md R882). -/
def State.alt4 (s : State) : Word := wset 0xFFFF 6 (!s.canOnPort || s.canTxd)

/-- CSx is active between two bus cycles: its window was accessed last, in which it was an address chip select (R625,
R635). -/
def State.csActive (s : State) (x : Fin 5) : Bool :=
  match s.bus.lines.window with
  | some (y, con) => y == x && con &&& 0xC000 == 0
  | none => false

/-- Port 6 (R612, R625, R640): the selected chip selects, in hold state pulled high; and after HLDEN was set once HOLD,
HLDA, which is an input in slave mode (log 53), and BREQ, active in hold state while the CPU or the PEC waits for the
bus. While the CPU stands still BREQ is high, and without an external bus HLDA and BREQ show their port latches (R670). -/
def State.auto6 (s : State) : AutoLines :=
  let n := csLines (s.reg Sfr.rp0h)
  let level := (List.finRange 5).foldl (fun w x => wset w x.val (s.sys.hold || !s.csActive x)) (0 : Word)
  let a : AutoLines := if s.busEnabled then .outputs n level else .none
  let on := s.sys.hldenOnce
  let still := s.sys.cpu == .idle || s.sys.cpu == .powerDown
  let out := on && (s.busEnabled || !still)
  let slave := s.regBit Sfr.dp6 7
  (((a.listen 5 on).listen 6 (on && slave)).drive 6 (out && !slave) (!s.sys.hold)).drive 7 out
    (still || !(s.sys.hold && (s.sys.waiting || s.sys.pecWait.isSome)))

/-- Operating mode of the ASC0: S0M = 000 is synchronous (62_peripherals_b.md R720). -/
def State.ascSync (s : State) : Bool := decide (fieldNat (s.reg Sfr.s0con) 0 3 = 0)

/-- Level of the alternate output TXD0: the bit being sent, or the shift clock of synchronous transfers, low in the
first half of each bit and high before the first one. The phase of the clock is a DESIGN CHOICE (log 12). -/
def State.txd0 (s : State) : Bool :=
  if s.ascSync then
    match s.asc.rx with
    | .frame p _ _ => decide (2 ≤ p)
    | .idle => s.asc.txBits.isEmpty || decide (2 ≤ s.asc.txPulses)
  else s.asc.txBits.headD true

/-- Level of the alternate output RXD0: the data bit of a synchronous transmission, from its first baud pulse on (R726,
R730). -/
def State.rxd0Out (s : State) : Bool := if s.ascSync && s.asc.txPulses != 4 then s.asc.txBits.headD true else true

/-- SSC enabled as master, as slave (R741). -/
def State.sscOn (s : State) (master : Bool) : Bool :=
  s.regBit Sfr.ssccon 15 && (s.regBit Sfr.ssccon 14 == master)

/-- The alternate data outputs of Port 3; unused ones are 1 (R604, R609, 62_peripherals_b.md R689, R705, R745). -/
def State.alt3 (s : State) : Word :=
  let a := wset 0xFFFF 1 (!s.regBit Sfr.t6con 9 || s.regBit Sfr.t6con 10)
  let a := wset a 3 (!s.regBit Sfr.t3con 9 || s.regBit Sfr.t3con 10)
  let a := wset a 8 (!s.sscOn false || s.ssc.outBit)
  let a := wset a 9 (!s.sscOn true || s.ssc.outBit)
  let a := wset a 10 s.txd0
  let a := wset a 11 s.rxd0Out
  wset a 13 (!s.sscOn true || (s.regBit Sfr.ssccon 6 != s.ssc.half))

/-- The comparator output of PWM channel `x` (63_peripherals_c.md R805). -/
def State.pwmOut (s : State) (x : Fin 4) : Bool := decide (s.pwm.pws[x.val].toNat ≤ (s.reg (Sfr.pt x)).toNat)

/-- What drives the lines P7.3..P7.0: the latch, XORed with the enabled PWM outputs (R812). -/
def State.out7 (s : State) : Word :=
  let o := fun (x : Fin 4) => s.pwmOut x && (x != 0 || !s.regBit Sfr.pwmcon1 12 || s.pwmOut 1)
  (List.finRange 4).foldl
    (fun w x => wset w x.val (wbit w x.val != (s.regBit Sfr.pwmcon1 x.val && o x))) (s.reg Sfr.p7)

/-- Levels of Port 2. -/
def State.pins2 (s : State) : Word :=
  pinLevels (s.direction Sfr.dp2) (s.reg Sfr.p2) (s.reg Sfr.odp2) s.env.p2

/-- Levels of Port 3. -/
def State.pins3 (s : State) : Word :=
  s.auto3.pins (s.direction Sfr.dp3) (s.reg Sfr.p3 &&& s.alt3) (s.reg Sfr.odp3) s.env.p3

/-- Levels of Port 7. -/
def State.pins7 (s : State) : Word :=
  pinLevels (s.direction Sfr.dp7) s.out7 (s.reg Sfr.odp7) s.env.p7

/-- Levels of Port 8. -/
def State.pins8 (s : State) : Word :=
  pinLevels (s.direction Sfr.dp8) (s.reg Sfr.p8) (s.reg Sfr.odp8) s.env.p8

/-- Levels of P0L and P0H. -/
def State.pins0 (s : State) (high : Bool) : Word :=
  if high then (s.auto0 true).pins (s.direction Sfr.dp0h) (s.reg Sfr.p0h) 0 s.env.p0h
  else (s.auto0 false).pins (s.direction Sfr.dp0l) (s.reg Sfr.p0l) 0 s.env.p0l

/-- Levels of P1L. -/
def State.pins1l (s : State) : Word := (s.auto1 false).pins (s.direction Sfr.dp1l) (s.reg Sfr.p1l) 0 s.env.p1l

/-- Levels of P1H. -/
def State.pins1h (s : State) : Word := (s.auto1 true).pins (s.direction Sfr.dp1h) (s.reg Sfr.p1h) 0 s.env.p1h

/-- Levels of Port 4. -/
def State.pins4 (s : State) : Word := s.auto4.pins (s.direction Sfr.dp4) (s.reg Sfr.p4 &&& s.alt4) 0 s.env.p4

/-- Levels of Port 6. -/
def State.pins6 (s : State) : Word :=
  s.auto6.pins (s.direction Sfr.dp6) (s.reg Sfr.p6) (s.reg Sfr.odp6) s.env.p6

/-- The direction register and the pin levels of a port data register. -/
def State.portOf (s : State) (r : Sfr) : Option (Sfr × Word) :=
  if r = Sfr.p0l then some (Sfr.dp0l, s.pins0 false)
  else if r = Sfr.p0h then some (Sfr.dp0h, s.pins0 true)
  else if r = Sfr.p1l then some (Sfr.dp1l, s.pins1l)
  else if r = Sfr.p1h then some (Sfr.dp1h, s.pins1h)
  else if r = Sfr.p2 then some (Sfr.dp2, s.pins2)
  else if r = Sfr.p3 then some (Sfr.dp3, s.pins3)
  else if r = Sfr.p4 then some (Sfr.dp4, s.pins4)
  else if r = Sfr.p6 then some (Sfr.dp6, s.pins6)
  else if r = Sfr.p7 then some (Sfr.dp7, s.pins7)
  else if r = Sfr.p8 then some (Sfr.dp8, s.pins8)
  else none

/-- What a read of a port data register gives: the latch where the direction bit is 1, the pin level where it is 0, and
0 in bits without a line (R601). The direction bit, not the automatic direction, selects (log 48). -/
def State.readPort (s : State) (r dp : Sfr) (pins : Word) : Word :=
  let d := s.direction dp
  ((d &&& s.reg r) ||| (~~~d &&& pins)) &&& r.mask

/-- The direction registers. -/
def Sfr.isDirection (r : Sfr) : Bool :=
  r = Sfr.dp0l || r = Sfr.dp0h || r = Sfr.dp1l || r = Sfr.dp1h || r = Sfr.dp2 || r = Sfr.dp3 || r = Sfr.dp4
    || r = Sfr.dp6 || r = Sfr.dp7 || r = Sfr.dp8

/-- Level of the capture input or compare output line of CAPCOM channel `x` (63_peripherals_c.md R761). -/
def State.ccio (s : State) (x : Fin 32) : Bool :=
  if x.val < 16 then wbit s.pins2 x.val
  else if x.val < 24 then wbit s.pins8 (x.val - 16)
  else if x.val < 28 then wbit s.pins1h (x.val - 20)
  else wbit s.pins7 (x.val - 24)

/-- The fast external interrupts of one CPU clock: edges on P2.15..P2.8 selected by EXICON set CC15IR..CC8IR
(60_exceptions.md R571). -/
def State.fastExternal (s : State) : State :=
  let now := s.pins2
  let s' := (List.finRange 8).foldl
    (fun (t : State) x =>
      if edgeSel (fieldNat (s.reg Sfr.exicon) (2 * x.val) 2) (s.sys.exPrev.map (wbit · (8 + x.val))) (wbit now (8 + x.val))
      then t.request (Sfr.ccic ⟨8 + x.val, by omega⟩) else t) s
  { s' with sys := { s'.sys with exPrev := some now } }

end Sys2Proof.Machine
end

