-- ==== Sys2Proof/Machine/Can.lean ====
section
/-! DEFINITION. The on-chip CAN module at frame level (64_can.md): its 256 bytes, the two-bit elements, acceptance,
and the events of R885. -/
namespace Sys2Proof.Machine

/-- The byte at offset `k` of the module. -/
def State.canByte (s : State) (k : Nat) : Byte := s.can.ram[k % 256]'(Nat.mod_lt _ (by omega))

/-- `s` with the byte `v` at offset `k` of the module. -/
def State.setCanByte (s : State) (k : Nat) (v : Byte) : State :=
  { s with can := { s.can with ram := s.can.ram.set (k % 256) v (Nat.mod_lt _ (by omega)) } }

/-- The elements of a message control register, numbered from the low end (R871). MSGLST of a receive object is
CPUUPD of a transmit object. -/
inductive CanElem
  | intpnd | rxie | txie | msgval | newdat | msglst | txrq | rmtpnd
deriving DecidableEq, Repr

/-- The place of an element: byte of the register, lower bit in that byte. -/
def CanElem.place : CanElem → Nat × Nat
  | .intpnd => (0, 0)
  | .rxie => (0, 2)
  | .txie => (0, 4)
  | .msgval => (0, 6)
  | .newdat => (1, 0)
  | .msglst => (1, 2)
  | .txrq => (1, 4)
  | .rmtpnd => (1, 6)

/-- The element is set: it reads 10 (R871). DESIGN CHOICE (log 74): an element that holds a reserved pair, 00 or 11, as it may
after power-on, counts as not set. -/
def State.canElem (s : State) (n : Nat) (e : CanElem) : Bool :=
  let b := s.canByte (16 * n + e.place.1)
  b.getLsbD (e.place.2 + 1) && !b.getLsbD e.place.2

/-- Two bits of a byte. -/
def setPair (b : Byte) (i : Nat) (hi lo : Bool) : Byte :=
  (b &&& ~~~((3#8) <<< i)) ||| (((if hi then 2#8 else 0#8) ||| (if lo then 1#8 else 0#8)) <<< i)

/-- The element becomes set (10) or reset (01). -/
def State.setCanElem (s : State) (n : Nat) (e : CanElem) (b : Bool) : State :=
  let k := 16 * n + e.place.1
  s.setCanByte k (setPair (s.canByte k) e.place.2 b (!b))

/-- INIT, IE, SIE, EIE, CCE are bits 0, 1, 2, 3, 6 of the control byte (R864). -/
def State.canControl (s : State) (i : Nat) : Bool := (s.canByte 0).getLsbD i

/-- An identifier or mask from its upper and lower register at offset `k` (R870). -/
def State.canId (s : State) (k : Nat) : BitVec 29 :=
  s.canByte k ++ s.canByte (k + 1) ++ s.canByte (k + 2) ++ (s.canByte (k + 3)).extractLsb' 3 5

/-- `s` with the identifier `v` in the arbitration registers at offset `k`. -/
def State.setCanId (s : State) (k : Nat) (v : BitVec 29) : State :=
  (((s.setCanByte k (v.extractLsb' 21 8)).setCanByte (k + 1) (v.extractLsb' 13 8)).setCanByte (k + 2)
    (v.extractLsb' 5 8)).setCanByte (k + 3) (v.extractLsb' 0 5 ++ 0#3)

/-- The acceptance mask of object `n` (R870, R885). -/
def State.canMask (s : State) (n : Nat) (ide : Bool) : BitVec 29 :=
  let g := if ide then s.canId 8 else s.canId 6 &&& 0x1FFC0000#29
  if n = 15 then g &&& s.canId 12 else g

/-- XTD, DIR and DLC of object `n` (R875). -/
def State.canXtd (s : State) (n : Nat) : Bool := (s.canByte (16 * n + 6)).getLsbD 2
/-- DIR = 1: a transmit object. -/
def State.canDir (s : State) (n : Nat) : Bool := (s.canByte (16 * n + 6)).getLsbD 3

/-- The identifier of a frame; a standard one sits in ID28..18 (R885). -/
def CanFrame.ident (f : CanFrame) : BitVec 29 := if f.ide then f.id else f.id &&& 0x1FFC0000#29

/-- Object `n` accepts the frame (R873, R885). -/
def State.canAccept (s : State) (n : Nat) (f : CanFrame) : Bool :=
  s.canElem n .msgval && s.canXtd n == f.ide && s.canDir n == f.rtr &&
    ((s.canId (16 * n + 2) ^^^ f.ident) &&& s.canMask n f.ide) == 0

/-- INTID (R865). -/
def State.canIntid (s : State) : Byte :=
  if s.can.statusInt then 1
  else if s.canElem 15 .intpnd then 2
  else
    match (List.range 14).find? (fun i => s.canElem (i + 1) .intpnd) with
    | some i => BitVec.ofNat 8 (3 + i)
    | none => 0

/-- After every event and every CPU access: INTID, the interrupt line and XP0IR (R867, R885, D36). While INIT is set
NEWDAT and RMTPND of object 15 are reset and nothing is transmitted (R881). DESIGN CHOICE (log 14): a message in the second
buffer of object 15 is then discarded. -/
def State.canUpdate (s : State) : State :=
  let s :=
    if s.canControl 0 then
      let s := (s.setCanElem 15 .newdat false).setCanElem 15 .rmtpnd false
      { s with can := { s.can with txObj := none, txFrame := none, obj15 := none } }
    else s
  let id := s.canIntid
  let s := s.setCanByte 2 id
  let line := s.canControl 1 && id != 0
  let s := if line && !s.can.linePrev then s.request Sfr.xp0ic else s
  { s with can := { s.can with linePrev := line } }

/-- The status bits after a transfer or an error (R864, R885 `StatusUpdate`). -/
def State.canStatus (s : State) (rx tx : Bool) (lec : BitVec 3) : State :=
  let b := (s.canByte 1 &&& 0xF8) ||| lec.setWidth 8
  let b := if rx then b ||| 0x10 else b
  let b := if tx then b ||| 0x08 else b
  let s := s.setCanByte 1 b
  if s.canControl 2 then { s with can := { s.can with statusInt := true } } else s

/-- INTPND of object `n` is set if its enable element is. -/
def State.canPend (s : State) (n : Nat) (enable : CanElem) : State :=
  if s.canElem n enable then s.setCanElem n .intpnd true else s

/-- A data frame goes into object `n`; bytes beyond DLC become free values (R874, U38). -/
def State.canStore (s : State) (n : Nat) (f : CanFrame) : State :=
  let s := if s.canElem n .newdat then s.setCanElem n .msglst true else s
  let s := s.setCanId (16 * n + 2) f.ident
  let s := s.setCanByte (16 * n + 6) (f.dlc ++ (s.canByte (16 * n + 6)).extractLsb' 0 4)
  let s := (List.finRange 8).foldl
    (fun (t : State) i => t.setCanByte (16 * n + 7 + i.val)
      (if i.val < f.dlc.toNat then f.data[i.val] else Config.freeByte .canUnusedData s.free (8 * s.clock + i.val))) s
  (s.setCanElem n .newdat true).canPend n .rxie

/-- A remote frame for transmit object `n` (R874, R885). -/
def State.canRemote (s : State) (n : Nat) (f : CanFrame) : State :=
  let s := s.setCanByte (16 * n + 6) (f.dlc ++ (s.canByte (16 * n + 6)).extractLsb' 0 4)
  let s :=
    if n = 15 then
      let m := s.canMask 15 f.ide
      s.setCanId (16 * n + 2) ((s.canId (16 * n + 2) &&& m) ||| (f.ident &&& ~~~m))
    else (s.setCanElem n .rmtpnd true).setCanElem n .txrq true
  s.canPend n .rxie

/-- A data frame for object 15: the second buffer takes it while the first message is unread (R876). A third message
replaces the second one, and MSGLST is set; INTPND is set, if RXIE is, when a message enters the second buffer and again
when it is released to the registers (DESIGN CHOICE, log 14). -/
def State.canStore15 (s : State) (f : CanFrame) : State :=
  if s.canElem 15 .newdat then
    let s := if s.can.obj15.isSome then s.setCanElem 15 .msglst true else s
    ({ s with can := { s.can with obj15 := some f } }).canPend 15 .rxie
  else s.canStore 15 f

/-- The new values of the error counters after an event of the bus, parameters of the environment (D35). While INIT is set
the counters are left unchanged (R881). A transmit count of 256 or more is busoff, which sets INIT when it is entered and
lasts until the recovery sequence is finished, so that no event before takes the count below 256 (R866). -/
def State.canCount (s : State) (rec tec : Nat) : State :=
  if s.canControl 0 then s
  else
    let tec := if s.can.busoff then max 256 tec else tec
    let t := { s with can := { s.can with recCount := rec, tecCount := tec, busoff := decide (256 ≤ tec) } }
    if t.can.busoff && !s.can.busoff then t.setCanByte 0 (t.canByte 0 ||| 1) else t

/-- BOFF and EWRN from the error counters; a change with EIE = 1 makes a status interrupt (R866, R885). -/
def State.canErrorState (s : State) : State :=
  let old := s.canByte 1 &&& 0xC0
  let ewrn := 96 ≤ s.can.recCount || 96 ≤ s.can.tecCount
  let new := (if s.can.busoff then 0x80#8 else 0) ||| (if ewrn then 0x40#8 else 0)
  let s := s.setCanByte 1 ((s.canByte 1 &&& 0x3F) ||| new)
  if new ≠ old ∧ s.canControl 3 then { s with can := { s.can with statusInt := true } } else s

/-- A frame is received without error (R885 `RxFrame`), with the new error counts (R866). -/
def State.canRxFrame (s : State) (f : CanFrame) (rec tec : Nat) : State :=
  if s.canControl 0 then s
  else
    let s :=
      match (List.range 15).find? (fun i => s.canAccept (i + 1) f) with
      | none => s
      | some i =>
        if f.rtr then s.canRemote (i + 1) f else if i = 14 then s.canStore15 f else s.canStore (i + 1) f
    ((s.canStatus true false 0).canCount rec tec).canErrorState.canUpdate

/-- The frame of `tx_obj` was transmitted (R885 `TxDone`), with the new error counts (R866). -/
def State.canTxDone (s : State) (rec tec : Nat) : State :=
  match s.can.txObj with
  | none => s
  | some n =>
    let s := { s with can := { s.can with txObj := none, txFrame := none } }
    let s := if s.canElem n.val .newdat then s else (s.setCanElem n.val .txrq false).setCanElem n.val .rmtpnd false
    (((s.canPend n.val .txie).canStatus false true 0).canCount rec tec).canErrorState.canUpdate

/-- An error on the bus (R885 `BusError`), with the new error counts: busoff sets INIT. Codes 0 and 7 name no error
(R864). -/
def State.canBusError (s : State) (code : BitVec 3) (rec tec : Nat) : State :=
  if code = 0 || code = 7 then s else
  let s := ((s.canCount rec tec).canStatus false false code).canErrorState
  (if s.can.busoff then s.setCanByte 0 (s.canByte 0 ||| 1) else s).canUpdate

/-- A sequence of 11 recessive bits was monitored: during busoff recovery LEC becomes 5 (R864). It changes neither the
counters nor INIT. -/
def State.canRecessive (s : State) : State := if s.can.busoff then (s.canStatus false false 5).canUpdate else s

/-- The busoff recovery sequence is finished (R866): an event of the environment (D35). DESIGN CHOICE (log 62): both error
counters are then 0; while INIT is set, which leaves the counters unchanged (R881), the sequence does not finish. -/
def State.canRecover (s : State) : State :=
  if s.canControl 0 then s
  else (({ s with can := { s.can with recCount := 0, tecCount := 0, busoff := false } }).canErrorState).canUpdate

/-- Object `n` may be transmitted now (R885). -/
def State.canReady (s : State) (n : Nat) : Bool :=
  s.canElem n .msgval && s.canElem n .txrq && !(s.canDir n && s.canElem n .msglst)

/-- The frame that the transmission of object `n` sends: a data frame with its data for a transmit object, a remote frame
for a receive object, with the identifier and length of the object (R872, R873, R875, R885). A length above 8 is taken as
8 (U38); data bytes that are not sent are 0 here. -/
def State.canFrame (s : State) (n : Nat) : CanFrame :=
  let code : BitVec 4 := (s.canByte (16 * n + 6)).extractLsb' 4 4
  let dlc : BitVec 4 := if code.toNat ≤ 8 then code else 8
  let f : CanFrame :=
    { ide := s.canXtd n, rtr := !s.canDir n, id := s.canId (16 * n + 2), dlc := dlc
      data := Vector.ofFn (fun (i : Fin 8) =>
        if s.canDir n && i.val < dlc.toNat then s.canByte (16 * n + 7 + i.val) else 0) }
  { f with id := f.ident }

/-- One CPU clock: a pending transmission starts when the bus is idle, which is a free choice (R885, D35). -/
def State.canTick (s : State) : State :=
  if s.canControl 0 then s
  else
    match s.can.txObj with
    | some _ => s
    | none =>
      match (List.finRange 14).find? (fun i => s.canReady (i.val + 1)) with
      | none => s
      | some i =>
        if Config.freeBool .canBusIdle s.free s.clock then
          let s := { s with can := { s.can with
            txObj := some ⟨i.val + 1, by omega⟩, txFrame := some (s.canFrame (i.val + 1)) } }
          (if s.canDir (i.val + 1) then s.setCanElem (i.val + 1) .newdat false else s).canUpdate
        else s

/-- A byte of the module as the CPU reads it: fixed bits, the hard-wired elements of object 15, and
free values for reserved bits (R863, R870, R872, U35). -/
def State.canRead (s : State) (k : Fin 256) : Byte :=
  let b := s.canByte k.val
  let free := Config.freeByte .canReserved s.free k.val
  if k.val = 1 then (b &&& 0xDF) ||| (free &&& 0x20)
  else if k.val = 3 then free
  else if k.val = 5 then b &&& 0x7F
  else if k.val = 7 then b ||| 0x1F
  else if k.val = 0x0B ∨ k.val = 0x0F then b &&& 0xF8
  else if k.val < 16 then b
  else if k.val = 0xF0 ∨ k.val = 0xF1 then setPair b 4 false true
  else if k.val % 16 = 5 then b &&& 0xF8
  else if k.val % 16 = 6 then b &&& 0xFC
  else if k.val % 16 = 15 then free
  else b

/-- A CPU read of the status byte ends the status change interrupt (R864). -/
def State.canReadStatus (s : State) : State := ({ s with can := { s.can with statusInt := false } }).canUpdate

/-- A byte of a message control register after a write: 01 and 10 act, 11 and 00 leave the element (R871, U35). -/
def canElements (old v : Byte) : Byte :=
  [0, 2, 4, 6].foldl
    (fun b i =>
      let hi := v.getLsbD (i + 1)
      let lo := v.getLsbD i
      if hi != lo then setPair b i hi lo else b) old

/-- The effect of one byte written by the CPU. Clearing NEWDAT of object 15 releases the second buffer (R876). DESIGN
CHOICE (log 61): the Bit Timing Register takes a write where CCE is set, whatever INIT is (R868 leaves it open). -/
def State.canWriteByte (s : State) (k : Fin 256) (v : Byte) : State :=
  let b := s.canByte k.val
  if k.val = 0 then s.setCanByte 0 (v &&& 0x4F)
  else if k.val = 1 then s.setCanByte 1 ((b &&& 0xE0) ||| (v &&& 0x1F))
  else if k.val = 2 ∨ k.val = 3 then s
  else if k.val = 4 ∨ k.val = 5 then (if s.canControl 6 then s.setCanByte k.val v else s)
  else if k.val < 16 then s.setCanByte k.val v
  else if k.val % 16 < 2 then
    let v' := canElements b v
    let v' := if 0xF0 ≤ k.val then setPair v' 4 false true else v'
    let s' := s.setCanByte k.val v'
    if k.val = 0xF1 then
      match s.can.obj15 with
      | some f =>
        if s'.canElem 15 .newdat then s'
        else ({ s' with can := { s'.can with obj15 := none } }).canStore 15 f
      | none => s'
    else s'
  else if k.val % 16 = 15 then s
  else s.setCanByte k.val v

/-- The write of the control byte is one the spec does not define: test mode (U36), or INIT cleared with a bit timing
out of range (U39). -/
def State.canRefusal (s : State) (k : Fin 256) (v : Byte) : Option Refusal :=
  if k.val = 0 then
    if v.getLsbD 7 then some .canTestMode
    else if s.canControl 0 && !v.getLsbD 0 && (decide (fieldNat ((s.canByte 5).setWidth 16) 0 4 < 2)
        || decide (fieldNat ((s.canByte 5).setWidth 16) 4 3 < 1)) then some .canBitTiming
    else none
  else none

end Sys2Proof.Machine
end

