-- ==== Sys2Proof/Machine/Adc.lean ====
section
/-! DEFINITION. The A/D converter (63_peripherals_c.md chapter 3), on the pseudocode of R835. -/
namespace Sys2Proof.Machine

/-- The basic conversion clock tCC in CPU clocks by ADCTC (R832); 01 is reserved. -/
def adcClock (adctc : Nat) : Nat := match adctc with | 0 => 12 | 2 => 48 | 3 => 24 | _ => 12

/-- The length of the sample phase, 2 tSC, in CPU clocks (R832). -/
def adcSample (con : Word) : Nat := 2 * adcClock (fieldNat con 14 2) * 2 ^ fieldNat con 12 2

/-- The length of a conversion in CPU clocks: 14 tCC + 2 tSC + 2 (R832). -/
def adcTime (con : Word) : Nat := 14 * adcClock (fieldNat con 14 2) + adcSample con + 2

/-- Start of a conversion of channel `ch` (R835). With the reserved ADCTC = 01 the machine stops at its next step
(U33). -/
def State.adcStart (s : State) (ch : BitVec 4) (injected : Bool) : State :=
  let con := s.reg Sfr.adcon
  let s := s.setRegBit Sfr.adcon 8 true
  { s with adc := { s.adc with
      cur := ch
      sample := s.env.analog[ch.toNat]
      left := adcTime con
      sampleLeft := adcSample con
      phase := if injected then .injected else .standard
      badClock := s.adc.badClock || fieldNat con 14 2 == 1 } }

/-- Delivery of a result to ADDAT or, injected, to ADDAT2 (R835 `Deliver`). -/
def State.adcDeliver (s : State) (second : Bool) (v : Word) : State :=
  let full := if second then s.adc.addat2Full else s.adc.addatFull
  if s.regBit Sfr.adcon 9 && full then { s with adc := { s.adc with tmp := some (second, v) } }
  else if second then
    let s := s.setReg Sfr.addat2 ((s.reg Sfr.addat2 &&& 0xF000) ||| (v &&& 0x03FF))
    let s := { s with adc := { s.adc with addat2Full := true } }
    (s.request Sfr.adeic).adcSet 11 false
  else
    let s := if s.adc.addatFull then s.request Sfr.adeic else s
    let s := s.setReg Sfr.addat v
    ({ s with adc := { s.adc with addatFull := true } }).request Sfr.adcic

/-- The converter stops: ADBSY is cleared, ADST too where the spec says so. -/
def State.adcStop (s : State) (clearStart : Bool) : State :=
  let s := s.setRegBit Sfr.adcon 8 false
  let s := if clearStart then s.adcSet 7 false else s
  { s with adc := { s.adc with phase := .idle, stopReq := if clearStart then false else s.adc.stopReq } }

/-- The fixed channel operation ends after this conversion: single mode, or stopped (R825). Where ADM changed
between single and continuous meanwhile, R824 and the pseudocode of R835 differ by one conversion: a free choice. -/
def State.adcFixedEnds (s : State) (adm : BitVec 2) : Bool :=
  s.adc.stopReq ||
    (if s.adc.seqMode = 0 ∧ adm = 1 ∨ s.adc.seqMode = 1 ∧ adm = 0 then Config.freeBool .adcModeChange s.free s.clock
     else s.adc.seqMode == 0)

/-- The standard operation goes on after a conversion (R835 `Next`, last branch). -/
def State.adcContinue (s : State) : State :=
  let con := s.reg Sfr.adcon
  let restart := fun (s : State) =>
    ({ s with adc := { s.adc with seqStart := con.extractLsb' 0 4 } }).adcStart (con.extractLsb' 0 4) false
  if !wbit con 7 && !s.adc.stopReq then s.adcStop false
  else if s.adc.seqMode.toNat < 2 then
    let ends := s.adcFixedEnds (con.extractLsb' 4 2)
    let s := { s with adc := { s.adc with seqMode := con.extractLsb' 4 2 } }
    if ends then s.adcStop true else restart s
  else if s.adc.lastStd ≠ 0 then s.adcStart (s.adc.lastStd - 1) false
  else if s.adc.stopReq || s.adc.seqMode = 2 then s.adcStop true
  else restart { s with adc := { s.adc with seqMode := con.extractLsb' 4 2 } }

/-- What follows a completed conversion (R835 `Next`). -/
def State.adcNext (s : State) : State :=
  let con := s.reg Sfr.adcon
  if s.adc.tmp.isSome then { s with adc := { s.adc with phase := .suspended } }
  else if wbit con 10 && wbit con 11 && !s.adc.afterInj then s.adcStart ((s.reg Sfr.addat2).extractLsb' 12 4) true
  else s.adcContinue

/-- The end of the running conversion. -/
def State.adcDone (s : State) : State :=
  match s.adc.phase with
  | .standard =>
    let v := (s.adc.cur.setWidth 16 <<< 12) ||| s.adc.sample.setWidth 16
    let s := s.adcDeliver false v
    ({ s with adc := { s.adc with lastStd := s.adc.cur, afterInj := false } }).adcNext
  | .injected =>
    let s := s.adcDeliver true (s.adc.sample.setWidth 16)
    ({ s with adc := { s.adc with afterInj := true } }).adcNext
  | _ => s

/-- One CPU clock of the converter (R835). -/
def State.adcTick (s : State) : State :=
  let s :=
    match s.adc.phase with
    | .standard | .injected =>
      let s := { s with adc := { s.adc with left := s.adc.left - 1, sampleLeft := s.adc.sampleLeft - 1 } }
      if s.adc.left = 0 then s.adcDone else s
    | _ => s
  let con := s.reg Sfr.adcon
  let s :=
    if s.adc.phase = .idle && wbit con 10 && wbit con 11 && wbit con 9 && s.adc.tmp.isNone then
      s.adcStart ((s.reg Sfr.addat2).extractLsb' 12 4) true
    else s
  { s with adc := { s.adc with written := 0 } }

/-- A software write of `v` to ADCON (R824, R835); `named` are the bits it means to write, and in the same clock the
hardware does not change these (10_state.md R62 (c), R822). -/
def State.writeAdcon (s : State) (v named : Word) : State :=
  let old := s.reg Sfr.adcon
  let s := s.setReg Sfr.adcon v
  let s := { s with adc := { s.adc with written := s.adc.written ||| (named &&& 0x0880) } }
  if !wbit old 7 && wbit v 7 then
    ({ s with adc := { s.adc with
        seqMode := v.extractLsb' 4 2, seqStart := v.extractLsb' 0 4, stopReq := false } }).adcStart (v.extractLsb' 0 4) false
  else if wbit old 7 && !wbit v 7 && s.adc.phase ≠ .idle then { s with adc := { s.adc with stopReq := true } }
  else s

/-- A software write of `v` to ADDAT2. Where it changes the channel number in the sample phase of an injected conversion,
the input multiplexer switches to the new channel (R829): the level sampled from the two channels is a free value, with
which the conversion goes on (U34 would refuse; DESIGN CHOICE, log 79). -/
def State.writeAddat2 (s : State) (v : Word) : State :=
  let t := s.setReg Sfr.addat2 v
  if s.adc.phase = .injected && s.adc.sampleLeft != 0 && (v ^^^ s.reg Sfr.addat2) &&& 0xF000 != 0 then
    { t with adc := { t.adc with
        cur := v.extractLsb' 12 4, sample := (Config.freeWord .adcSwitched s.free s.clock).setWidth 10 } }
  else t

/-- A suspended converter goes on once its buffer is empty (R828). -/
def State.adcResume (s : State) : State := if s.adc.phase = .suspended then s.adcNext else s

/-- `s` with an empty temporary buffer. -/
def State.adcClearTmp (s : State) : State := { s with adc := { s.adc with tmp := none } }

/-- The buffered result moves to its register, and a suspended converter goes on (R828, R835). -/
def State.adcUnbuffer (s : State) (second : Bool) : State :=
  match s.adc.tmp with
  | some (t, v) => if t == second then (s.adcClearTmp.adcDeliver second v).adcResume else s
  | none => s

/-- The effect of a read of ADDAT or ADDAT2 (R827, R835, D33). -/
def State.adcRead (s : State) (second : Bool) : State :=
  if second then ({ s with adc := { s.adc with addat2Full := false } }).adcUnbuffer true
  else ({ s with adc := { s.adc with addatFull := false } }).adcUnbuffer false

/-- Injection enabled without wait for read mode (R829, U32). -/
def State.adcBadInjection (s : State) : Bool := s.regBit Sfr.adcon 10 && !s.regBit Sfr.adcon 9

end Sys2Proof.Machine
end

