-- ==== Sys2Proof/Machine/Asc.lean ====
section
/-! DEFINITION. The serial interface ASC0 (62_peripherals_b.md chapter 3): frames, baud rate generator, transmitter
and receiver, and the effects of accesses to its registers. -/
namespace Sys2Proof.Machine

/-- The data bits of a frame in mode `m` with the parity or ninth bit, first to last (R723). -/
def ascBits (m : Nat) (odd : Bool) (d : Word) : List Bool :=
  let bits := fun n => (List.range n).map (wbit d)
  match m with
  | 3 => bits 7 ++ [parityOf d 7 != odd]
  | 4 => bits 9
  | 5 => bits 9
  | 7 => bits 8 ++ [parityOf d 8 != odd]
  | _ => bits 8

/-- Number of data bits of a frame, parity or ninth bit included. -/
def ascWidth (m : Nat) : Nat := if m = 4 ∨ m = 5 ∨ m = 7 then 9 else 8

/-- Number of stop bits (R720). -/
def ascStops (con : Word) : Nat := if wbit con 3 then 2 else 1

/-- The parity bit agrees with the data (R723); true in modes without parity. -/
def ascParityOk (m : Nat) (odd : Bool) (d : Word) : Bool :=
  if m = 3 then wbit d 7 == (parityOf d 7 != odd) else if m = 7 then wbit d 8 == (parityOf d 8 != odd) else true

/-- The word of a list of bits, least significant first. -/
def wordOfBits : List Bool → Word
  | [] => 0
  | b :: bs => wordOfBool b ||| (wordOfBits bs <<< 1)

/-- End of a received frame (R727). -/
def State.ascFrameDone (s : State) (data : Word) (stopsOk : Bool) : State :=
  let con := s.reg Sfr.s0con
  let m := fieldNat con 0 3
  let s := { s with asc := { s.asc with rx := .idle } }
  if m = 5 ∧ wbit data 8 = false then s
  else
    let fe := wbit con 6 && m != 0 && !stopsOk
    let pe := wbit con 5 && !ascParityOk m (wbit con 12) data
    let oe := wbit con 7 && s.asc.rbufUnread
    let con := if fe then wset con 9 true else con
    let con := if pe then wset con 8 true else con
    let con := if oe then wset con 10 true else con
    let con := if m = 0 then wset con 4 false else con
    let s := (s.setReg Sfr.s0con con).setReg Sfr.s0rbuf data
    let s := { s with asc := { s.asc with rbufUnread := true } }
    let s := s.request Sfr.s0ric
    if fe || pe || oe then s.request Sfr.s0eic else s

/-- The transmitter takes S0TBUF when it is idle (R724, R730), and the frame starts at the next baud clock: the leading 1
is the idle line until the next overflow of the divide-by-16 counter, and a synchronous frame (`txPulses` = 4) waits for
the next baud pulse. DESIGN CHOICE (log 50): a character that waits while a frame
is sent is taken after its last stop bit, so that one idle bit time stands between two frames. -/
def State.ascLoad (s : State) : State :=
  let con := s.reg Sfr.s0con
  let m := fieldNat con 0 3
  let receiving := match s.asc.rx with | .idle => false | .frame _ _ _ => true
  if s.asc.tbufFull && s.asc.txBits.isEmpty && (m != 0 || (!wbit con 4 && !receiving)) then
    let d := s.reg Sfr.s0tbuf
    let bits :=
      if m = 0 then ascBits 0 false d
      else true :: false :: (ascBits m (wbit con 12) d ++ List.replicate (ascStops con) true)
    ({ s with asc := { s.asc with tbufFull := false, txBits := bits, txPulses := if m = 0 then 4 else 0 } }).request Sfr.s0tbic
  else s

/-- The last bit time of a transmission is over: S0TBUF is cleared if nothing new waits in it (R730, D24). -/
def State.ascTxEnd (s : State) : State :=
  if s.asc.txBits.isEmpty && !s.asc.tbufFull then s.setReg Sfr.s0tbuf 0 else s

/-- A bit time of the asynchronous transmitter: an overflow of the divide-by-16 counter. -/
def State.ascTxBit (s : State) : State :=
  match s.asc.txBits with
  | [] => s
  | _ :: rest =>
    let s := { s with asc := { s.asc with txBits := rest } }
    let s := if rest.length = 1 then s.request Sfr.s0tic else s
    s.ascTxEnd

/-- A baud pulse of the synchronous transmitter: the first one starts the frame, and four make a bit (R726, R728, R730). -/
def State.ascTxSync (s : State) : State :=
  match s.asc.txBits with
  | [] => s
  | _ :: rest =>
    if s.asc.txPulses = 4 then { s with asc := { s.asc with txPulses := 0 } }
    else if s.asc.txPulses < 3 then { s with asc := { s.asc with txPulses := s.asc.txPulses + 1 } }
    else
      let s := { s with asc := { s.asc with txBits := rest, txPulses := 0 } }
      let s := if rest.isEmpty then s.request Sfr.s0tic else s
      s.ascTxEnd

/-- A baud pulse of the asynchronous receiver: 16 samples to a bit, a majority of samples 7, 8, 9 decides (R725). DESIGN
CHOICE (log 58): the sample that shows the falling edge is not one of the 16 of the start bit; sample 1 is that of the next
baud pulse. DESIGN CHOICE (log 70): where S0M or S0STP is changed during a frame, the bits received so far are counted
against the new width and number of stop bits. -/
def State.ascRxAsync (s : State) (level : Bool) : State :=
  let con := s.reg Sfr.s0con
  let m := fieldNat con 0 3
  let set := fun (rx : AscRx) => { s with asc := { s.asc with rx := rx, rxPrev := some level } }
  match s.asc.rx with
  | .idle => if wbit con 4 && s.asc.rxPrev == some true && !level then set (.frame 0 0 []) else set .idle
  | .frame p v bits =>
    let p := p + 1
    let v := if p = 7 ∨ p = 8 ∨ p = 9 then v + level.toNat else v
    let bit := decide (2 ≤ v)
    if p = 9 then
      let bits := bit :: bits
      let n := bits.length
      if n = 1 then (if bit then set .idle else set (.frame p v bits))
      else if 1 + ascWidth m + ascStops con ≤ n then
        let all := bits.reverse.tail
        (set .idle).ascFrameDone (wordOfBits (all.take (ascWidth m))) ((all.drop (ascWidth m)).all id)
      else set (.frame p v bits)
    else if 16 ≤ p then set (.frame 0 0 bits)
    else set (.frame p v bits)

/-- A baud pulse of the synchronous receiver (R726): the data bit is taken in the middle of each bit time. DESIGN CHOICE
(log 52): with S0REN set during a transmission the reception starts after it. -/
def State.ascRxSync (s : State) (level : Bool) : State :=
  let set := fun (rx : AscRx) => { s with asc := { s.asc with rx := rx, rxPrev := some level } }
  match s.asc.rx with
  | .idle => if s.regBit Sfr.s0con 4 && s.asc.txBits.isEmpty then set (.frame 0 0 []) else set .idle
  | .frame p v bits =>
    if p = 1 then set (.frame 2 v (level :: bits))
    else if 3 ≤ p then
      if 8 ≤ bits.length then (set .idle).ascFrameDone (wordOfBits bits.reverse) true else set (.frame 0 0 bits)
    else set (.frame (p + 1) v bits)

/-- One pulse of the baud rate generator. DESIGN CHOICE (log 70): where S0M or S0STP is changed during a frame (R720), the
bits still to be sent or received go on under the new mode. DESIGN CHOICE (log 71): with S0LB = 1 the receiver's input is
the transmitter's output (R722), which in synchronous mode too is 1 while nothing is transmitted, and an edge that a change
of S0LB makes at the input counts as any other. -/
def State.ascPulse (s : State) : State :=
  let level := if s.regBit Sfr.s0con 14 then s.asc.txBits.headD true else wbit s.pins3 11
  if s.ascSync then s.ascTxSync.ascRxSync level
  else
    let d := (s.asc.div16 + 1) % 16
    let s := { s with asc := { s.asc with div16 := d } }
    let s := if d = 0 then s.ascTxBit else s
    s.ascRxAsync level

/-- An underflow of the baud rate timer; with S0BRS = 1 two of three pass (R728). DESIGN CHOICE (log 75): which one of three
is swallowed is not stated; it is the third by a count of its own, which runs under S0BRS = 1 only and which no write to S0BG
or S0CON restarts. -/
def State.ascUnderflow (s : State) : State :=
  if s.regBit Sfr.s0con 13 then
    let ph := (s.asc.brsPhase + 1) % 3
    let s := { s with asc := { s.asc with brsPhase := ph } }
    if ph = 0 then s else s.ascPulse
  else s.ascPulse

/-- One CPU clock of the ASC0: nothing happens while S0R = 0 (R720, R728), and the receiver's input is not sampled, so that
an edge under S0R = 0 starts no reception (R725). DESIGN CHOICE (log 51): a frame in which S0R is cleared stands still, its
level on the line, and goes on when S0R is set again. -/
def State.ascTick (s : State) : State :=
  if s.regBit Sfr.s0con 15 then
    let s := s.ascLoad
    let s := if s.asc.reloadDue then { s with asc := { s.asc with baud := s.reg Sfr.s0bg, reloadDue := false } } else s
    if s.asc.baudDiv = 0 then { s with asc := { s.asc with baudDiv := 1 } }
    else
      let s := { s with asc := { s.asc with baudDiv := 0 } }
      if s.asc.baud = 0 then { s with asc := { s.asc with baud := s.reg Sfr.s0bg } }.ascUnderflow
      else { s with asc := { s.asc with baud := s.asc.baud - 1 } }
  else { s with asc := { s.asc with rxPrev := none } }

/-- The generator runs with a reserved mode (R720, U29). -/
def State.ascReserved (s : State) : Bool :=
  s.regBit Sfr.s0con 15 && (fieldNat (s.reg Sfr.s0con) 0 3 == 2 || fieldNat (s.reg Sfr.s0con) 0 3 == 6)

/-- A write to S0TBUF (R730). -/
def State.writeS0tbuf (s : State) (v : Word) : State :=
  { s.setReg Sfr.s0tbuf v with asc := { s.asc with tbufFull := true } }

/-- A write to S0BG: the reload register, and the timer at once or when S0R is set (R728). DESIGN CHOICE (log 80): it
restarts neither the divide-by-2 in front of the timer nor the divide-by-16 or the bit time behind it. -/
def State.writeS0bg (s : State) (v : Word) : State :=
  let s := s.setReg Sfr.s0bg v
  if s.regBit Sfr.s0con 15 then { s with asc := { s.asc with baud := v } }
  else { s with asc := { s.asc with reloadDue := true } }

end Sys2Proof.Machine
end

