-- ==== Sys2Proof/Machine/Capcom.lean ====
section
/-! DEFINITION. The capture/compare units CAPCOM1 and CAPCOM2 (63_peripherals_c.md chapter 1): one step of both, which
the clock of Cycle.lean runs once every 8 CPU clocks. -/
namespace Sys2Proof.Machine

/-- A CAPCOM timer: its place among T0, T1, T7, T8 and its registers. -/
structure CapTimer where
  idx : Fin 4
  t : Sfr
  rel : Sfr
  ic : Sfr
  con : Sfr
  /-- lowest bit of its field in the control register -/
  sh : Nat

/-- Timer `n` of T0, T1, T7, T8 (R761, R762). -/
def capTimer (n : Fin 4) : CapTimer :=
  match n with
  | 0 => ⟨0, Sfr.t0, Sfr.t0rel, Sfr.t0ic, Sfr.t01con, 0⟩
  | 1 => ⟨1, Sfr.t1, Sfr.t1rel, Sfr.t1ic, Sfr.t01con, 8⟩
  | 2 => ⟨2, Sfr.t7, Sfr.t7rel, Sfr.t7ic, Sfr.t78con, 0⟩
  | 3 => ⟨3, Sfr.t8, Sfr.t8rel, Sfr.t8ic, Sfr.t78con, 8⟩

/-- Mode of channel `x`, CCMODx (R767). -/
def State.ccMode (s : State) (x : Fin 32) : Nat :=
  fieldNat (s.reg (Sfr.ccm ⟨x.val / 4, by omega⟩)) (4 * (x.val % 4)) 3

/-- The timer channel `x` is allocated to, by ACCx (R767). -/
def State.ccTimer (s : State) (x : Fin 32) : CapTimer :=
  let acc := s.regBit (Sfr.ccm ⟨x.val / 4, by omega⟩) (4 * (x.val % 4) + 3)
  capTimer (if x.val < 16 then (if acc then 1 else 0) else (if acc then 3 else 2))

/-- Requests of a step to the port latches, by channel, and the timers that overflowed in it (R776 to R778). -/
structure CapReq where
  toggle : List (Fin 32)
  set : List (Fin 32)
  clear : List (Fin 32)
  ovf : List (Fin 4)

/-- No request. -/
def CapReq.none : CapReq := { toggle := [], set := [], clear := [], ovf := [] }

/-- The timer was written by software or has counted since the last compare scan. -/
def State.capChanged (s : State) (n : Fin 4) : Bool := s.capcom.changed[n.val]

/-- Set `changed` of a timer (R770, R776). -/
def State.setCapChanged (s : State) (n : Fin 4) (b : Bool) : State :=
  { s with capcom := { s.capcom with changed := s.capcom.changed.set n.val b } }

/-- Set `done` of a channel (R776). -/
def State.setCapDone (s : State) (x : Fin 32) (b : Bool) : State :=
  { s with capcom := { s.capcom with done := s.capcom.done.set x.val b } }

/-- The channel drives a port latch: all but 24 to 27 (R768). -/
def capHasLatch (x : Fin 32) : Bool := decide (x.val < 24 ∨ 28 ≤ x.val)

/-- The pin of channel `x` serves as fast external interrupt: its capture/compare function cannot be used
(60_exceptions.md R571). DESIGN CHOICE (log 69): the channel stops wholly, also in the compare modes that use no pin, and
as the partner in a double-register pair, since the fast interrupt takes its interrupt node. -/
def State.ccFast (s : State) (x : Fin 32) : Bool :=
  8 ≤ x.val && x.val < 16 && fieldNat (s.reg Sfr.exicon) (2 * (x.val % 8)) 2 != 0

/-- The overflow of a timer: `done` of its channels is cleared, mode 3 outputs are reset (R778). -/
def State.capOverflow (s : State) (q : CapReq) (n : Fin 4) : State × CapReq :=
  (List.finRange 32).foldl
    (fun (a : State × CapReq) x =>
      let (s, q) := a
      if (s.ccTimer x).idx = n then
        (s.setCapDone x false,
          if s.ccMode x = 7 && capHasLatch x && !s.ccFast x then { q with clear := x :: q.clear } else q)
      else (s, q))
    (s, { q with ovf := n :: q.ovf })

/-- One count of a CAPCOM timer: up, with reload at the overflow (R763). -/
def State.capCount (s : State) (q : CapReq) (x : CapTimer) : State × CapReq :=
  let s' := s.setCapChanged x.idx true
  if s.reg x.t = 0xFFFF then ((s'.setReg x.t (s.reg x.rel)).request x.ic).capOverflow q x.idx
  else (s'.setReg x.t (s.reg x.t + 1), q)

/-- The count pulse of a timer in step `k` (R764, R765, R779 part 1); `prev` and `pin` belong to T0IN or T7IN and count
for timers A only. -/
def State.capPulse (s : State) (x : CapTimer) (prev : Option Bool) (pin : Bool) (k : Nat) : Bool :=
  let con := s.reg x.con
  let i := fieldNat con x.sh 3
  if !wbit con (x.sh + 3) then decide (k % 2 ^ i = 0)
  else if i % 4 = 0 then s.capcom.t6Pulse
  else x.sh == 0 && edgeSel (i % 4) prev pin

/-- Part 1 of the step for one timer: a software write in the same step has priority (R763, R779). -/
def State.capTimerStep (s : State) (q : CapReq) (x : CapTimer) (prev : Option Bool) (pin : Bool) (k : Nat) :
    State × CapReq :=
  if wbit (s.reg x.con) (x.sh + 6) && s.capPulse x prev pin k && !s.capChanged x.idx then s.capCount q x else (s, q)

/-- A capture or compare event of channel `x`: CCxIR, and for channel 31 the injection request of the converter
(R777, R831). -/
def State.ccEvent (s : State) (x : Fin 32) : State :=
  let s := s.request (Sfr.ccic x)
  if x = 31 then s.adcSet 11 true else s

/-- Part 2 of the step for one channel: capture (R769, R779). Channels 8 to 15 whose pin serves as fast external
interrupt capture nothing (60_exceptions.md R571). -/
def State.capCapture (s : State) (x : Fin 32) : State :=
  let level := s.ccio x
  let m := s.ccMode x
  let s' :=
    if m < 4 && !s.ccFast x && edgeSel m s.capcom.prev[x.val] level then
      (s.setReg (Sfr.cc x) (s.reg (s.ccTimer x).t)).ccEvent x
    else s
  { s' with capcom := { s'.capcom with prev := s'.capcom.prev.set x.val (some level) } }

/-- A match of channel `x` (R777): double-register mode toggles the pin of the bank 1 register (R775). -/
def State.capMatch (s : State) (q : CapReq) (x : Fin 32) : State × CapReq :=
  let s := s.ccEvent x
  match s.ccMode x with
  | 4 =>
    if h : 8 ≤ x.val % 16 then
      let y : Fin 32 := ⟨x.val - 8, by omega⟩
      if s.ccMode y = 5 then (s, { q with toggle := y :: q.toggle }) else (s, q)
    else (s, q)
  | 5 => (s, if capHasLatch x then { q with toggle := x :: q.toggle } else q)
  | 6 => (s.setCapDone x true, q)
  | 7 => (s.setCapDone x true, if capHasLatch x then { q with set := x :: q.set } else q)
  | _ => (s, q)

/-- Part 3 of the step for one channel: compare, only when its timer has changed (R770, R779, D27), and not on a fast
external interrupt input, whatever the mode (log 69). -/
def State.capCompare (s : State) (q : CapReq) (x : Fin 32) : State × CapReq :=
  let m := s.ccMode x
  let t := s.ccTimer x
  if 4 ≤ m && !s.ccFast x && s.capChanged t.idx && s.reg t.t == s.reg (Sfr.cc x) && !(6 ≤ m && s.capcom.done[x.val]) then
    s.capMatch q x
  else (s, q)

/-- The port latch of a channel: register, bit, and its place in `Capcom.latchWritten` (R761). -/
def capLatch (x : Fin 32) : Sfr × Nat × Fin 3 :=
  if x.val < 16 then (Sfr.p2, x.val, 0)
  else if x.val < 24 then (Sfr.p8, x.val - 16, 2)
  else (Sfr.p7, x.val - 24, 1)

/-- End of the step for one channel's latch: toggled once, set, or cleared; set and clear together leave it; a
software write in the same step wins (R777, R778). -/
def State.capApply (s : State) (q : CapReq) (x : Fin 32) : State :=
  let (r, i, w) := capLatch x
  let st := q.set.contains x
  let cl := q.clear.contains x
  if wbit s.capcom.latchWritten[w.val] i then s
  else if q.toggle.contains x then s.setRegBit r i (!s.regBit r i)
  else if st && !cl then s.setRegBit r i true
  else if cl && !st then s.setRegBit r i false
  else s

/-- The channels of unit 0 or 1. -/
def capChannels (unit : Bool) : List (Fin 32) := (List.finRange 32).filter (fun x => decide (16 ≤ x.val) == unit)

/-- The step of one unit (R779). -/
def State.capUnit (s : State) (unit : Bool) (prev : Option Bool) (pin : Bool) (k : Nat) : State :=
  let a := capTimer (if unit then 2 else 0)
  let b := capTimer (if unit then 3 else 1)
  let (s, q) := s.capTimerStep .none a prev pin k
  let (s, q) := s.capTimerStep q b none false k
  let s := (capChannels unit).foldl State.capCapture s
  let (s, q) := (capChannels unit).foldl (fun (p : State × CapReq) x => p.1.capCompare p.2 x) (s, q)
  let s := (capChannels unit).foldl (fun t x => t.capApply q x) s
  (s.setCapChanged a.idx false).setCapChanged b.idx false

/-- Step `k` of both units (R779): the edge of TxIN is evaluated in the unit's own part, that of T7IN on P2.15 after
CAPCOM1 has applied its requests to the latches of Port 2. -/
def State.capcomTick (s : State) (k : Nat) : State :=
  let t0in := wbit s.pins3 0
  let s1 := s.capUnit false s.capcom.t0in t0in k
  let t7in := wbit s1.pins2 15
  let s' := s1.capUnit true s.capcom.t7in t7in k
  { s' with capcom := { s'.capcom with
      t0in := some t0in, t7in := some t7in, t6Pulse := false, latchWritten := Vector.replicate 3 0 } }

/-- A software write to a CAPCOM timer (R763, R770). -/
def State.writeCapTimer (s : State) (n : Fin 4) (v : Word) : State :=
  (s.setReg (capTimer n).t v).setCapChanged n true

end Sys2Proof.Machine
end

