-- ==== Sys2Proof/Machine/Gpt.lean ====
section
/-! DEFINITION. The general purpose timer units GPT1 and GPT2 (62_peripherals_b.md chapters 1 and 2): one step of
each, which the clock of Cycle.lean runs once every 8 and every 4 CPU clocks. -/
namespace Sys2Proof.Machine

/-- A timer of the two units with its registers: the timer, its control and its interrupt control register. -/
structure GptTimer where
  t : Sfr
  con : Sfr
  ic : Sfr

/-- T2. -/
def gptT2 : GptTimer := { t := Sfr.t2, con := Sfr.t2con, ic := Sfr.t2ic }
/-- T3. -/
def gptT3 : GptTimer := { t := Sfr.t3, con := Sfr.t3con, ic := Sfr.t3ic }
/-- T4. -/
def gptT4 : GptTimer := { t := Sfr.t4, con := Sfr.t4con, ic := Sfr.t4ic }
/-- T5. -/
def gptT5 : GptTimer := { t := Sfr.t5, con := Sfr.t5con, ic := Sfr.t5ic }
/-- T6. -/
def gptT6 : GptTimer := { t := Sfr.t6, con := Sfr.t6con, ic := Sfr.t6ic }

/-- Count direction (R684), `eud` being the level of pin TxEUD. -/
def gptDown (con : Word) (eud : Bool) : Bool :=
  if wbit con 8 then eud != wbit con 7 else wbit con 7

/-- The prescaler with selection `i` fires in tick `k`: once every 2^i ticks (R685, R703, D23). -/
def prescalerFires (i k : Nat) : Bool := decide (k % 2 ^ i = 0)

/-- A hardware change of register `r`, dropped where software wrote the register in the same tick (R680). -/
def State.gptSet (s : State) (r : Sfr) (v : Word) : State :=
  if s.gpt.written.contains r then s else s.setReg r v

/-- One count of a timer: the new state, and whether the timer overflowed or underflowed (R694). DESIGN CHOICE (log
16): a count that a software write displaces neither overflows nor requests an interrupt, while a reload or capture
that one displaces (`gptSet`) still sets its request flag. -/
def State.gptCount (s : State) (x : GptTimer) (eud : Bool) : State × Bool :=
  if s.gpt.written.contains x.t then (s, false)
  else
    let v := s.reg x.t
    if gptDown (s.reg x.con) eud then
      (if v = 0 then ((s.setReg x.t 0xFFFF).request x.ic, true) else (s.setReg x.t (v - 1), false))
    else
      (if v = 0xFFFF then ((s.setReg x.t 0).request x.ic, true) else (s.setReg x.t (v + 1), false))

/-- Timer and gated timer mode: the timer runs, its gate is open and its prescaler fires (R685, R686). `mode` are the
two low bits of TxM. -/
def gptTimerFires (con : Word) (mode : Nat) (pin : Bool) (k : Nat) : Bool :=
  wbit con 6 && prescalerFires (fieldNat con 0 3) k &&
    (mode == 0 || (mode == 2 && !pin) || (mode == 3 && pin))

/-- The core timer fires (R694 part 1, R709 part 1). -/
def gptCoreFires (con : Word) (prev : Option Bool) (pin : Bool) (k : Nat) : Bool :=
  match fieldNat con 3 3 with
  | 0 => gptTimerFires con 0 pin k
  | 1 => wbit con 6 && !wbit con 2 && edgeSel (fieldNat con 0 2) prev pin
  | 2 => gptTimerFires con 2 pin k
  | 3 => gptTimerFires con 3 pin k
  | _ => false

/-- The edge of an output toggle latch that this tick produced: none, or some true for rising. -/
def otlEdge (sel : Nat) (e : Option Bool) : Bool :=
  match e with
  | none => false
  | some rising => edgeSel sel (some (!rising)) rising

/-- Trigger of an auxiliary timer: its pin or the toggle latch, as TxI selects (R688). -/
def gptTrigger (con : Word) (prev : Option Bool) (pin : Bool) (otl : Option Bool) : Bool :=
  if wbit con 2 then otlEdge (fieldNat con 0 2) otl else edgeSel (fieldNat con 0 2) prev pin

/-- Part 1 of the tick of GPT1: the core timer T3, with the edge of T3OTL (R694, R689). -/
def State.gpt1Core (s : State) (p3 : Word) (k : Nat) : State × Option Bool :=
  if gptCoreFires (s.reg Sfr.t3con) s.gpt.t3in (wbit p3 6) k then
    let (s, ov) := s.gptCount gptT3 (wbit p3 4)
    if ov then (s.setRegBit Sfr.t3con 10 (!s.regBit Sfr.t3con 10), some (!s.regBit Sfr.t3con 10)) else (s, none)
  else (s, none)

/-- Part 2 of the tick of GPT1: an auxiliary timer; a capture takes `t3`, what T3 held after part 1 (R694). -/
def State.gpt1Aux (s : State) (x : GptTimer) (prev : Option Bool) (pin eud : Bool) (otl : Option Bool) (t3 : Word)
    (k : Nat) : State :=
  let con := s.reg x.con
  match fieldNat con 3 3 with
  | 0 => if gptTimerFires con 0 pin k then (s.gptCount x eud).1 else s
  | 1 => if wbit con 6 && gptTrigger con prev pin otl then (s.gptCount x eud).1 else s
  | 2 => if gptTimerFires con 2 pin k then (s.gptCount x eud).1 else s
  | 3 => if gptTimerFires con 3 pin k then (s.gptCount x eud).1 else s
  | 4 => if gptTrigger con prev pin otl then (s.gptSet Sfr.t3 (s.reg x.t)).request x.ic else s
  | 5 => if edgeSel (fieldNat con 0 2) prev pin then (s.gptSet x.t t3).request x.ic else s
  | _ => s

/-- Tick `k` of GPT1 (R694). -/
def State.gpt1Tick (s : State) (k : Nat) : State :=
  let p3 := s.pins3
  let (s1, otl) := s.gpt1Core p3 k
  let s2 := s1.gpt1Aux gptT2 s.gpt.t2in (wbit p3 7) (wbit s.env.p5 15) otl (s1.reg Sfr.t3) k
  let s3 := s2.gpt1Aux gptT4 s.gpt.t4in (wbit p3 5) (wbit s.env.p5 14) otl (s1.reg Sfr.t3) k
  { s3 with
    gpt := { s3.gpt with
      t2in := some (wbit p3 7), t3in := some (wbit p3 6), t4in := some (wbit p3 5)
      written := s3.gpt.written.filter (fun r => !(r = Sfr.t2 || r = Sfr.t3 || r = Sfr.t4)) } }

/-- Part 1 of the tick of GPT2: the core timer T6 with its toggle latch, its reload from CAPREL and its pulse to the
CAPCOM timers (R705, R707, R709). -/
def State.gpt2Core (s : State) (k : Nat) : State × Option Bool :=
  if gptCoreFires (s.reg Sfr.t6con) s.gpt.t6in (wbit s.env.p5 12) k then
    let (s, ov) := s.gptCount gptT6 (wbit s.env.p5 10)
    if ov then
      let rising := !s.regBit Sfr.t6con 10
      let s := s.setRegBit Sfr.t6con 10 rising
      let s := if s.regBit Sfr.t6con 15 then s.setReg Sfr.t6 (s.reg Sfr.caprel) else s
      ({ s with capcom := { s.capcom with t6Pulse := true } }, some rising)
    else (s, none)
  else (s, none)

/-- Part 2 of the tick of GPT2: the auxiliary timer T5 (R709). -/
def State.gpt2Aux (s : State) (otl : Option Bool) (k : Nat) : State :=
  let con := s.reg Sfr.t5con
  let pin := wbit s.env.p5 13
  let fires :=
    match fieldNat con 3 2 with
    | 0 => gptTimerFires con 0 pin k
    | 1 => wbit con 6 && gptTrigger con s.gpt.t5in pin otl
    | m => gptTimerFires con m pin k
  if fires then (s.gptCount gptT5 (wbit s.env.p5 11)).1 else s

/-- Part 3 of the tick of GPT2: an edge on CAPIN (R706, R709). -/
def State.gpt2Capture (s : State) (pin : Bool) : State :=
  let con := s.reg Sfr.t5con
  if edgeSel (fieldNat con 12 2) s.gpt.capin pin then
    let s := s.request Sfr.cric
    let s := if wbit con 15 then s.gptSet Sfr.caprel (s.reg Sfr.t5) else s
    if wbit con 14 then s.gptSet Sfr.t5 0 else s
  else s

/-- Tick `k` of GPT2 (R709). -/
def State.gpt2Tick (s : State) (k : Nat) : State :=
  let capin := wbit s.pins3 2
  let (s1, otl) := s.gpt2Core k
  let s2 := (s1.gpt2Aux otl k).gpt2Capture capin
  { s2 with
    gpt := { s2.gpt with
      t5in := some (wbit s.env.p5 13), t6in := some (wbit s.env.p5 12), capin := some capin
      written := s2.gpt.written.filter (fun r => !(r = Sfr.t5 || r = Sfr.t6 || r = Sfr.caprel)) } }

/-- A timer of GPT1 or GPT2 runs with a reserved mode (R682, R683, R687, R701, U29). -/
def State.gptReserved (s : State) : Bool :=
  let core := fun (c : Word) => wbit c 6 && (wbit c 5 || (fieldNat c 3 3 == 1 && wbit c 2))
  let aux := fun (c : Word) => wbit c 6 && fieldNat c 4 2 == 3
  core (s.reg Sfr.t3con) || core (s.reg Sfr.t6con) || aux (s.reg Sfr.t2con) || aux (s.reg Sfr.t4con)

end Sys2Proof.Machine
end

