-- ==== Sys2Proof/Machine/Pwm.lean ====
section
/-! DEFINITION. The PWM module (63_peripherals_c.md chapter 2). -/
namespace Sys2Proof.Machine

/-- A new PWM cycle of channel `x`: shadow latches loaded, PIRx set, PWMIR set if PIEx = 1 (R810, R811). -/
def State.pwmNewCycle (s : State) (x : Fin 4) : State :=
  let s := { s with pwm := { s.pwm with
    pps := s.pwm.pps.set x.val (s.reg (Sfr.pp x)), pws := s.pwm.pws.set x.val (s.reg (Sfr.pw x)) } }
  let s := s.setRegBit Sfr.pwmcon0 (12 + x.val) true
  if s.regBit Sfr.pwmcon0 (8 + x.val) then s.request Sfr.pwmic else s

/-- Set the count direction of channel `x` (mode 1). -/
def State.pwmTurn (s : State) (x : Fin 4) (down : Bool) : State :=
  { s with pwm := { s.pwm with down := s.pwm.down.set x.val down } }

/-- A count pulse of channel `x` (R810). -/
def State.pwmPulse (s : State) (x : Fin 4) : State :=
  let pt := s.reg (Sfr.pt x)
  let top := pt = s.pwm.pps[x.val]
  if 2 ≤ x.val && s.regBit Sfr.pwmcon1 (12 + x.val) then
    if top then ((s.setReg (Sfr.pt x) 0).setRegBit Sfr.pwmcon0 x.val false).pwmNewCycle x
    else s.setReg (Sfr.pt x) (pt + 1)
  else if !s.regBit Sfr.pwmcon1 (4 + x.val) then
    if top then (s.setReg (Sfr.pt x) 0).pwmNewCycle x else s.setReg (Sfr.pt x) (pt + 1)
  else if !s.pwm.down[x.val] then
    if top then s.pwmTurn x true else s.setReg (Sfr.pt x) (pt + 1)
  else
    if pt = 0 then (s.pwmTurn x false).pwmNewCycle x else s.setReg (Sfr.pt x) (pt - 1)

/-- One CPU clock of channel `x`: `t` counts the clocks (R804). A software write to PTx in the same clock has priority
over the count pulse (62_peripherals_b.md R680, 63_peripherals_c.md R810, D30). -/
def State.pwmChannel (s : State) (t : Nat) (x : Fin 4) : State :=
  if s.regBit Sfr.pwmcon0 x.val && (!s.regBit Sfr.pwmcon0 (4 + x.val) || t % 64 == 0) && !s.pwm.written[x.val] then
    s.pwmPulse x
  else s

/-- One CPU clock of the module. -/
def State.pwmTick (s : State) (t : Nat) : State :=
  let s := (List.finRange 4).foldl (fun u x => u.pwmChannel t x) s
  { s with pwm := { s.pwm with written := Vector.replicate 4 false } }

/-- A write to PTx. -/
def State.writePt (s : State) (x : Fin 4) (v : Word) : State :=
  { s.setReg (Sfr.pt x) v with pwm := { s.pwm with written := s.pwm.written.set x.val true } }

/-- A write to PPx: the shadow latch follows while the counter is stopped (R805, R810). -/
def State.writePp (s : State) (x : Fin 4) (v : Word) : State :=
  let s := s.setReg (Sfr.pp x) v
  if s.regBit Sfr.pwmcon0 x.val then s else { s with pwm := { s.pwm with pps := s.pwm.pps.set x.val v } }

/-- A write to PWx, likewise. -/
def State.writePw (s : State) (x : Fin 4) (v : Word) : State :=
  let s := s.setReg (Sfr.pw x) v
  if s.regBit Sfr.pwmcon0 x.val then s else { s with pwm := { s.pwm with pws := s.pwm.pws.set x.val v } }

end Sys2Proof.Machine
end

