-- ==== Sys2Proof/Machine/Ssc.lean ====
section
/-! DEFINITION. The synchronous serial interface SSC (62_peripherals_b.md chapter 4). The control set of SSCCON is
the register in the register file, the status set is `Ssc.status` (R741). -/
namespace Sys2Proof.Machine

/-- Transfer width: SSCBM + 1 (R741). -/
def State.sscWidth (s : State) : Nat := fieldNat (s.reg Sfr.ssccon) 0 4 + 1

/-- Set or clear a bit of the status set. -/
def State.sscStatus (s : State) (i : Nat) (b : Bool) : State :=
  { s with ssc := { s.ssc with status := wset s.ssc.status i b } }

/-- An error: its flag, and SSCEIR if its enable bit in the control set is set; flag and enable bit have the same
position (R747). -/
def State.sscError (s : State) (i : Nat) : State :=
  let s := s.sscStatus i true
  if s.regBit Sfr.ssccon i then s.request Sfr.ssceic else s

/-- The position of the next bit in the shift register, least or most significant first (R749). -/
def State.sscPos (s : State) : Nat :=
  let i := s.sscWidth - s.ssc.left
  if s.regBit Sfr.ssccon 4 then s.sscWidth - 1 - i else i

/-- The next bit goes onto the transmit line. -/
def State.sscShiftOut (s : State) : State :=
  { s with ssc := { s.ssc with outBit := wbit s.ssc.shift s.sscPos } }

/-- A transfer begins: all its bits are still to be shifted, SSCBC counts from 0, SSCBSY is set (R741, R749). -/
def State.sscBegin (s : State) : State :=
  let s := { s with ssc := { s.ssc with left := s.sscWidth, status := s.ssc.status &&& 0xFFF0 } }
  s.sscStatus 12 true

/-- SSCTB moves to the empty shift register (R742, R749). A slave puts the first bit on the line at once (R743). -/
def State.sscLoad (s : State) (master : Bool) : State :=
  if s.ssc.left = 0 && !s.ssc.loaded && s.ssc.tbFull then
    let s := { s with ssc := { s.ssc with shift := s.reg Sfr.ssctb, tbFull := false, loaded := true } }
    let s := s.sscBegin.request Sfr.ssctic
    if master then s else s.sscShiftOut
  else s

/-- The level of the receive line is latched into the position of the bit sent (R743, R749). -/
def State.sscLatch (s : State) (level : Bool) : State :=
  { s with ssc := { s.ssc with shift := wset s.ssc.shift s.sscPos level, sinceLatch := 0 :: s.ssc.sinceLatch } }

/-- Bits of SSCRB above the width are free values (U30), fixed when the transfer ends. -/
def State.sscReceived (s : State) : Word :=
  let mask : Word := (BitVec.ofNat 16 (2 ^ s.sscWidth - 1))
  (s.ssc.shift &&& mask) ||| (Config.freeWord .sscReceiveBits s.free s.clock &&& ~~~mask)

/-- One bit of the transfer is over; after the last one the data moves to SSCRB (R742, R749). DESIGN CHOICE (log 82): SSCBC
then keeps the number of bits, 0 for 16, until the next transfer begins. -/
def State.sscBitDone (s : State) : State :=
  let left := s.ssc.left - 1
  let s := { s with ssc := { s.ssc with
    left := left
    status := (s.ssc.status &&& 0xFFF0) ||| (BitVec.ofNat 16 ((s.sscWidth - left) % 16)) } }
  if left = 0 then
    let s := if s.ssc.rbUnread then s.sscError 9 else s
    let s := (s.setReg Sfr.sscrb s.sscReceived).request Sfr.sscric
    let s := { s with ssc := { s.ssc with rbUnread := true } }
    if s.ssc.tbFull then s else s.sscStatus 12 false
  else s

/-- The start of a bit time of the master: the bit before it is over, a transfer starts or goes on (R743, R744).
With SSCPH = 0 this is the leading clock edge. -/
def State.sscMasterBit (s : State) : State :=
  let s := { s with ssc := { s.ssc with half := false } }
  let s := if s.ssc.left ≠ 0 && !s.ssc.loaded then s.sscBitDone else s
  let s := s.sscLoad true
  if s.ssc.left = 0 then s
  else
    let s := { s with ssc := { s.ssc with loaded := false } }
    let s := s.sscShiftOut
    { s with ssc := { s.ssc with half := !s.regBit Sfr.ssccon 5 } }

/-- The middle of a bit time of the master: the latching edge. -/
def State.sscMasterHalf (s : State) (level : Bool) : State :=
  if s.ssc.left = 0 || s.ssc.loaded then s
  else
    let s := s.sscLatch level
    { s with ssc := { s.ssc with half := s.regBit Sfr.ssccon 5 } }

/-- The baud rate timer, clocked with fCPU / 2: one underflow a bit time (R746). The answer says whether this clock
is the underflow and whether it is the middle of the bit time. DESIGN CHOICE (log 81): R743 does not say where in the bit
time a master's opposite edge lies; it is the middle, SSCBR + 1 CPU clocks after the underflow. -/
def State.sscTimer (s : State) : State × Bool × Bool :=
  let br := s.reg Sfr.sscbr
  if s.ssc.baudDiv = 0 then
    let s' := { s with ssc := { s.ssc with baudDiv := 1 } }
    (s', false, decide (2 * (br.toNat - s.ssc.baud.toNat) + 1 = br.toNat + 1))
  else
    let s' := { s with ssc := { s.ssc with baudDiv := 0 } }
    if s.ssc.baud = 0 then ({ s' with ssc := { s'.ssc with baud := br } }, true, false)
    else
      ({ s' with ssc := { s'.ssc with baud := s.ssc.baud - 1 } }, false,
        decide (2 * (br.toNat - s.ssc.baud.toNat) + 2 = br.toNat + 1))

/-- One CPU clock of a master. -/
def State.sscMasterTick (s : State) (p3 : Word) : State :=
  let (s, underflow, middle) := (s.sscLoad true).sscTimer
  let s := if underflow then s.sscMasterBit else s
  if middle then s.sscMasterHalf (wbit p3 8) else s

/-- A shift clock at a slave of more than double or less than half the programmed rate (R747). DESIGN CHOICE (log 68): the
rate is measured from one leading edge to the next inside one transfer, never across two transfers. -/
def State.sscBaudCheck (s : State) : State :=
  let bit := 2 * ((s.reg Sfr.sscbr).toNat + 1)
  if s.ssc.sinceEdge > 2 * bit ∨ 2 * s.ssc.sinceEdge < bit then
    let s := s.sscError 11
    { s with ssc := { s.ssc with autoReset := s.ssc.autoReset || s.regBit Sfr.ssccon 12 } }
  else s

/-- The first clock edge of a transfer at a slave: without new data the old contents are shifted out, their first bit at
this edge, and SSCTE is set (R747, R749). DESIGN CHOICE (log 59): such a start sets SSCBSY but no SSCTIR, which R748 ties to
the move of SSCTB. -/
def State.sscSlaveStart (s : State) : State :=
  if s.ssc.loaded then { s with ssc := { s.ssc with loaded := false } } else s.sscBegin.sscShiftOut.sscError 8

/-- A leading shift clock edge at a slave. -/
def State.sscSlaveLeading (s : State) (level : Bool) : State :=
  let first := s.ssc.left = 0 || s.ssc.loaded
  let s := if first then s.sscSlaveStart else s.sscBaudCheck
  let s := { s with ssc := { s.ssc with sinceEdge := 0 } }
  if s.regBit Sfr.ssccon 5 then s.sscLatch level else s.sscShiftOut

/-- A trailing shift clock edge at a slave. DESIGN CHOICE (log 86): a bit is over here for either value of SSCPH, and with the
last one the transfer (SSCBC, SSCRB, SSCRIR, SSCBSY): half a shift clock after the last latch with SSCPH = 1, at the latching
edge itself with SSCPH = 0. R749 gives bit times only. -/
def State.sscSlaveTrailing (s : State) (level : Bool) : State :=
  if s.ssc.left = 0 || s.ssc.loaded then s
  else
    let s := if s.regBit Sfr.ssccon 5 then s else s.sscLatch level
    let s := s.sscBitDone
    if s.regBit Sfr.ssccon 5 && s.ssc.left ≠ 0 then s.sscShiftOut else s

/-- One CPU clock of a slave. The baud rate timer runs here too, without a use (R746). -/
def State.sscSlaveTick (s : State) (p3 : Word) : State :=
  let s := (s.sscLoad false).sscTimer.1
  let clk := wbit p3 13
  let po := s.regBit Sfr.ssccon 6
  let s' :=
    match s.ssc.sclkPrev with
    | none => s
    | some prev =>
      let s := { s with ssc := { s.ssc with sinceEdge := s.ssc.sinceEdge + 1 } }
      if prev = clk then s
      else if prev = po then s.sscSlaveLeading (wbit p3 9)
      else s.sscSlaveTrailing (wbit p3 9)
  { s' with ssc := { s'.ssc with sclkPrev := some clk } }

/-- The phase error: the receive line changes between one sample before and two samples after a latching edge (R747). Each
latching edge has samples of its own, also where the next one comes two clocks later. DESIGN CHOICE (log 76): the sample taken
in the CPU clock of the edge itself counts as neither and is compared too, so that four samples must agree. -/
def State.sscPhase (s : State) (level : Bool) : State :=
  let samples := level :: s.ssc.samples.take 3
  let full := s.ssc.sinceLatch.any (fun k => 2 ≤ k)
  let s := { s with ssc := { s.ssc with
    samples := samples, sinceLatch := (s.ssc.sinceLatch.filter (fun k => k < 2)).map (· + 1) } }
  if full && !samples.all (fun b => b == level) then s.sscError 10 else s

/-- One CPU clock of the SSC, as a master or a slave by SSCMS (R741, R742). DESIGN CHOICE (log 72): a transfer during which
SSCMS is changed goes on in the other role. -/
def State.sscTick (s : State) : State :=
  if s.regBit Sfr.ssccon 15 then
    let p3 := s.pins3
    if s.regBit Sfr.ssccon 14 then (s.sscMasterTick p3).sscPhase (wbit p3 8)
    else (s.sscSlaveTick p3).sscPhase (wbit p3 9)
  else s

/-- The SSC runs with the reserved width or, as a master, with the reserved reload value (R741, R746, U29). DESIGN CHOICE
(log 67): a slave, which makes no clock, runs with the reload value 0000h too, and its clock is compared with a bit time
of 2 CPU clocks. -/
def State.sscReserved (s : State) : Bool :=
  s.regBit Sfr.ssccon 15 &&
    (fieldNat (s.reg Sfr.ssccon) 0 4 == 0 || (s.regBit Sfr.ssccon 14 && s.reg Sfr.sscbr == 0))

/-- What SSCCON reads as: the control set, or while the SSC is enabled the status set (R741). -/
def State.readSsccon (s : State) : Word :=
  if s.regBit Sfr.ssccon 15 then (s.reg Sfr.ssccon &&& 0xC000) ||| (s.ssc.status &&& 0x1F0F)
  else s.reg Sfr.ssccon

/-- A write to SSCCON: to the set selected by SSCEN before the access; SSCEN and SSCMS in both cases (R741).
Enabling loads the baud rate timer with the reload value and restarts its divide-by-2, of which R746 says nothing (DESIGN
CHOICE, log 60), and forgets the last sample of SCLK, so that the first one of a slave is no edge (R743 silent; DESIGN
CHOICE, log 85); disabling ends a running transfer (DESIGN CHOICE, log 13); a change of SSCMS while the SSC stays enabled
leaves a loaded or running transfer, its shift register, bit count and last sample of SCLK (DESIGN CHOICE, log 72). -/
def State.writeSsccon (s : State) (v : Word) : State :=
  let old := s.reg Sfr.ssccon
  if wbit old 15 then
    let s := s.setReg Sfr.ssccon ((old &&& 0x3FFF) ||| (v &&& 0xC000))
    if wbit v 15 then { s with ssc := { s.ssc with status := (s.ssc.status &&& 0x000F) ||| (v &&& 0x1F00) } }
    else
      { s with ssc := { s.ssc with
          status := v &&& 0x0F00, left := 0, loaded := false, half := false, sinceLatch := [] } }
  else
    let s := s.setReg Sfr.ssccon (v &&& 0xDF7F)
    if wbit v 15 then
      { s with ssc := { s.ssc with baud := s.reg Sfr.sscbr, baudDiv := 0, sclkPrev := none, sinceEdge := 0 } }
    else s

/-- A write to SSCTB (R749). -/
def State.writeSsctb (s : State) (v : Word) : State :=
  { s.setReg Sfr.ssctb v with ssc := { s.ssc with tbFull := true } }

/-- What SSCBR reads as: the timer while the SSC is enabled (R746). -/
def State.readSscbr (s : State) : Word :=
  if s.regBit Sfr.ssccon 15 then s.ssc.baud else s.reg Sfr.sscbr

end Sys2Proof.Machine
end

