-- ==== Sys2Proof/Machine/SfrFile.lean ====
section
/-! DEFINITION. Reads and writes of special function registers by software, with the effects the spec gives them
(10_state.md R62, 11_sfr_map.md chapter 1). -/
namespace Sys2Proof.Machine

/-- The value registers SP, STKOV, STKUN take: bits 15-12 are 1, bit 0 is 0 (10_state.md R51 to R53). -/
def stackNorm (v : Word) : Word := 0xF000 ||| (v &&& 0x0FFE)

/-- The value CP takes (R24). -/
def cpNorm (v : Word) : Word := if v &&& 0x0E00 = 0 then stackNorm v ||| 0x0C00 else stackNorm v

/-- ILVL of a PSW (R33). -/
def pswLevel (v : Word) : BitVec 4 := v.extractLsb' 12 4

/-- The condition flags of a trap become set: each flag that was 0 requests its trap (60_exceptions.md R550). -/
def State.raise (s : State) (mask : Word) : State :=
  { s with
    core := { s.core with tfr := s.core.tfr ||| mask }
    sys := { s.sys with treq := s.sys.treq ||| (mask &&& ~~~s.core.tfr) } }

/-- TFR bits: ILLBUS, ILLINA, ILLOPA, PRTFLT, UNDOPC, STKUF, STKOF, NMI (R550). -/
def tfrIllbus : Word := 0x0001
/-- ILLINA, TFR bit 1. -/
def tfrIllina : Word := 0x0002
/-- ILLOPA, TFR bit 2. -/
def tfrIllopa : Word := 0x0004
/-- PRTFLT, TFR bit 3. -/
def tfrPrtflt : Word := 0x0008
/-- UNDOPC, TFR bit 7. -/
def tfrUndopc : Word := 0x0080
/-- STKUF, TFR bit 13. -/
def tfrStkuf : Word := 0x2000
/-- STKOF, TFR bit 14. -/
def tfrStkof : Word := 0x4000
/-- NMI, TFR bit 15. -/
def tfrNmi : Word := 0x8000
/-- The class A flags and the class B flags. -/
def tfrClassA : Word := 0xE000
/-- The class B flags. -/
def tfrClassB : Word := 0x008F

/-- The register of the CPU core behind a register number, none for the peripheral registers. -/
def State.coreValue (s : State) (r : Sfr) : Option Word :=
  if h : 256 ≤ r.val ∧ r.val < 260 then some (s.core.dpp[r.val - 256]'(by omega))
  else if r = Sfr.csp then some (s.core.csp.setWidth 16)
  else if r = Sfr.mdh then some s.core.mdh
  else if r = Sfr.mdl then some s.core.mdl
  else if r = Sfr.cp then some s.core.cp
  else if r = Sfr.sp then some s.core.sp
  else if r = Sfr.stkov then some s.core.stkov
  else if r = Sfr.stkun then some s.core.stkun
  else if r = Sfr.mdc then some s.core.mdc
  else if r = Sfr.psw then some s.core.psw
  else if r = Sfr.syscon then some s.core.syscon
  else if r = Sfr.zeros then some 0
  else if r = Sfr.ones then some 0xFFFF
  else if r = Sfr.tfr then some s.core.tfr
  else none

/-- What a register holds for a write-back: the port latch, otherwise what it reads as. -/
def State.sfrHeld (s : State) (r : Sfr) : Word :=
  match s.coreValue r with
  | some v => v
  | none => if r = Sfr.ssccon then s.readSsccon else s.reg r

/-- What a register reads as. -/
def State.sfrValue (s : State) (r : Sfr) : Word :=
  match s.coreValue r with
  | some v => v
  | none =>
    match s.portOf r with
    | some (dp, env) => s.readPort r dp env
    | none =>
      if r = Sfr.p5 then s.env.p5
      else if r = Sfr.s0bg then s.asc.baud
      else if r = Sfr.sscbr then s.readSscbr
      else if r = Sfr.ssccon then s.readSsccon
      else if r = Sfr.ssctb then Config.freeWord .sscTransmitBuffer s.free 0
      else s.reg r

/-- What a read by software changes: MDRIU (10_state.md R59), the unread flags of the serial receivers, the result
registers of the converter. -/
def State.afterSfrRead (s : State) (r : Sfr) : State :=
  if r = Sfr.mdl then { s with core := { s.core with mdc := wset s.core.mdc 4 false } }
  else if r = Sfr.s0rbuf then { s with asc := { s.asc with rbufUnread := false } }
  else if r = Sfr.sscrb then { s with ssc := { s.ssc with rbUnread := false } }
  else if r = Sfr.addat then s.adcRead false
  else if r = Sfr.addat2 then s.adcRead true
  else s

/-- `t` is `s` after a write of SYSCON, BUSCONx or ADDRSELx: the old mapping is remembered, for the next instruction and
for fetches in the changed areas (70_reset_and_hazards.md R925, R927). -/
def State.remap (s t : State) : State :=
  let c : MapChange := { old := s.busMap, new := t.busMap, entered := [] }
  let rest := t.sys.oldMaps.filter (fun d => !(d.old == c.old && d.new == c.new))
  { t with sys := { t.sys with
      lagNext := { t.sys.lagNext with map := t.sys.lagNext.map.or (some c.old) }
      oldMaps := if c.old = c.new then t.sys.oldMaps else c :: rest } }

/-- Write DPPn (10_state.md R49), remembering the old value for the next instruction (R922). -/
def State.writeDpp (s : State) (n : Fin 4) (v : Word) : State :=
  let old := s.core.dpp[n.val]
  { s with
    core := { s.core with dpp := s.core.dpp.set n.val (v &&& 0x03FF) }
    sys := { s.sys with lagNext := { s.sys.lagNext with
      dpp := s.sys.lagNext.dpp.set n.val ((s.sys.lagNext.dpp[n.val]).or (some old)) } } }

/-- Write CP (R24), remembering the old value (R921). -/
def State.writeCp (s : State) (v : Word) : State :=
  { s with
    core := { s.core with cp := cpNorm v }
    sys := { s.sys with lagNext := { s.sys.lagNext with cp := s.sys.lagNext.cp.or (some s.core.cp) } } }

/-- Explicit write of SP (R51), remembering the old value (R923). -/
def State.writeSp (s : State) (v : Word) : State :=
  { s with
    core := { s.core with sp := stackNorm v }
    sys := { s.sys with lagNext := { s.sys.lagNext with sp := s.sys.lagNext.sp.or (some s.core.sp) } } }

/-- Explicit write of PSW: bits 9-7 stay 0 (R33). The arbitration keeps the old IEN and ILVL for a while
(70_reset_and_hazards.md R924); HLDEN set once takes the arbitration pins (61_peripherals_a.md R640). -/
def State.writePsw (s : State) (v : Word) : State :=
  { s with
    core := { s.core with psw := v &&& 0xFC7F }
    sys := { s.sys with
      pswHist := some { ien := wbit s.core.psw 11, ilvl := pswLevel s.core.psw, age := 0 }
      hldenOnce := s.sys.hldenOnce || wbit v 10 } }

/-- Write SYSCON: without effect after EINIT (R45). -/
def State.writeSyscon (s : State) (v : Word) : State :=
  if s.sys.einitDone then s
  else s.remap { s with core := { s.core with syscon := Sfr.syscon.merge s.core.syscon v } }

/-- Write MDH: MDRIU is set (R56). -/
def State.writeMdh (s : State) (v : Word) : State :=
  { s with core := { s.core with mdh := v, mdc := wset s.core.mdc 4 true } }

/-- Write MDL: MDRIU is set (R57). -/
def State.writeMdl (s : State) (v : Word) : State :=
  { s with core := { s.core with mdl := v, mdc := wset s.core.mdc 4 true } }

/-- Write TFR: a flag set by software requests its trap, a flag cleared by software withdraws its request
(60_exceptions.md R550). -/
def State.writeTfr (s : State) (v : Word) : State :=
  let v := v &&& 0xE08F
  { s with
    core := { s.core with tfr := v }
    sys := { s.sys with treq := (s.sys.treq ||| (v &&& ~~~s.core.tfr)) &&& v } }

/-- Write PECCx: a written INC = 11 becomes 10 (60_exceptions.md R530). -/
def peccNorm (v : Word) : Word := if v &&& 0x0600 = 0x0600 then v &&& ~~~0x0200 else v

/-- Write a direction register, remembering the old direction (70_reset_and_hazards.md R926). -/
def State.writeDirection (s : State) (r : Sfr) (v : Word) : State :=
  let old := s.reg r
  let dp := s.sys.lagNext.dp
  let s := s.setReg r (r.merge old v)
  if (dp.lookup r).isSome then s
  else { s with sys := { s.sys with lagNext := { s.sys.lagNext with dp := (r, old) :: dp } } }

/-- The port latch bits `named` of P2, P7 or P8 were written by software in this CAPCOM step (63_peripherals_c.md R777). -/
def State.markLatch (s : State) (i : Fin 3) (named : Word) : State :=
  { s with capcom := { s.capcom with
      latchWritten := s.capcom.latchWritten.set i.val (s.capcom.latchWritten[i.val] ||| named) } }

/-- A GPT register was written by software since the unit's last tick (62_peripherals_b.md R680). -/
def State.markGpt (s : State) (r : Sfr) : State :=
  if s.gpt.written.contains r then s else { s with gpt := { s.gpt with written := r :: s.gpt.written } }

/-- Write a register of the CPU core; none for the peripheral registers. CSP, ZEROS and ONES ignore writes
(10_state.md R30, R60, R61). -/
def State.writeCore (s : State) (r : Sfr) (v : Word) : Option State :=
  if h : 256 ≤ r.val ∧ r.val < 260 then some (s.writeDpp ⟨r.val - 256, by omega⟩ v)
  else if r = Sfr.csp then some s
  else if r = Sfr.mdh then some (s.writeMdh v)
  else if r = Sfr.mdl then some (s.writeMdl v)
  else if r = Sfr.cp then some (s.writeCp v)
  else if r = Sfr.sp then some (s.writeSp v)
  else if r = Sfr.stkov then some { s with core := { s.core with stkov := stackNorm v } }
  else if r = Sfr.stkun then some { s with core := { s.core with stkun := stackNorm v } }
  else if r = Sfr.mdc then some { s with core := { s.core with mdc := v &&& 0x00FF } }
  else if r = Sfr.psw then some (s.writePsw v)
  else if r = Sfr.syscon then some (s.writeSyscon v)
  else if r = Sfr.zeros then some s
  else if r = Sfr.ones then some s
  else if r = Sfr.tfr then some (s.writeTfr v)
  else none

/-- Write a peripheral register whose write has an effect of its own; `v` holds the merged value, `named` the bits the
instruction means to write. DESIGN CHOICE (log 66): a write to SSCBR while the SSC is enabled, which 62_peripherals_b.md
R746 forbids, changes the reload value at once, and the running timer takes it at its next underflow. -/
def State.writePeripheral (s : State) (r : Sfr) (v named : Word) : State :=
  if r = Sfr.s0tbuf then s.writeS0tbuf v
  else if r = Sfr.s0bg then s.writeS0bg v
  else if r = Sfr.ssctb then s.writeSsctb v
  else if r = Sfr.adcon then s.writeAdcon v named
  else if r = Sfr.addat2 then s.writeAddat2 v
  else if r = Sfr.t0 then s.writeCapTimer 0 v
  else if r = Sfr.t1 then s.writeCapTimer 1 v
  else if r = Sfr.t7 then s.writeCapTimer 2 v
  else if r = Sfr.t8 then s.writeCapTimer 3 v
  else if r = Sfr.p2 then (s.setReg r v).markLatch 0 named
  else if r = Sfr.p7 then (s.setReg r v).markLatch 1 named
  else if r = Sfr.p8 then (s.setReg r v).markLatch 2 named
  else if r = Sfr.t2 || r = Sfr.t3 || r = Sfr.t4 || r = Sfr.t5 || r = Sfr.t6 || r = Sfr.caprel then
    (s.setReg r v).markGpt r
  else if h : 24 ≤ r.val ∧ r.val < 28 then s.writePt ⟨r.val - 24, by omega⟩ v
  else if h : 28 ≤ r.val ∧ r.val < 32 then s.writePp ⟨r.val - 28, by omega⟩ v
  else if h : 280 ≤ r.val ∧ r.val < 284 then s.writePw ⟨r.val - 280, by omega⟩ v
  else if 352 ≤ r.val && r.val < 360 then s.setReg r (peccNorm v)
  else if (268 ≤ r.val && r.val < 272) || r = 390 || (394 ≤ r.val && r.val < 398) then s.remap (s.setReg r v)
  else s.setReg r v

/-- A write of `v` to a peripheral register: only the writable bits change (R62 (b)). -/
def State.storePeripheral (s : State) (r : Sfr) (v named : Word) : State :=
  if r = Sfr.ssccon then s.writeSsccon v
  else if r.isDirection then s.writeDirection r v
  else s.writePeripheral r (r.merge (s.reg r) v) named

/-- `t` is `s` after a write of the bits `named` of `r`: the write is noted for the race with the hardware, which in
SSCCON is one for the status set (20_memory.md R135, log 42). -/
def State.noteWrite (s t : State) (r : Sfr) (named : Word) : State :=
  let w : SfrWrite := { reg := r, word := t.sfrHeld r, same := named &&& r.mask, lost := 0 }
  { t with sys := { t.sys with wrote := if r = Sfr.ssccon && !s.regBit Sfr.ssccon 15 then none else some w } }

/-- A write of `v` to register `r` by software, which means the bits `named`. Of the core's registers only TFR is changed
by the hardware while the clocks run, by an edge at NMI. -/
def State.storeSfr (s : State) (r : Sfr) (v named : Word) : State :=
  match s.writeCore r v with
  | some s' => if r = Sfr.tfr then s.noteWrite s' r named else s'
  | none => s.noteWrite (s.storePeripheral r v named) r named

/-- A write the spec does not define: to the latch of a port that carries the external bus (61_peripherals_a.md R606,
R607, U24). -/
def State.sfrRefusal (s : State) (r : Sfr) : Option Refusal :=
  if (r = Sfr.p0l && s.busUsesP0 false) || (r = Sfr.p0h && s.busUsesP0 true)
      || ((r = Sfr.p1l || r = Sfr.p1h) && s.busUsesP1) then some .busPortWrite
  else none

end Sys2Proof.Machine
end

