-- ==== Sys2Proof/Machine/Clock.lean ====
section
/-! DEFINITION. Time: what one CPU clock does to the units that run beside the CPU (10_state.md R65), the watchdog timer
(61_peripherals_a.md R650 to R653), and the events of the outside world (92_eei_decisions.md D3, D9). -/
namespace Sys2Proof.Machine

/-- The levels `v` on the pins of a port. -/
def Env.drive (e : Env) (p : PinGroup) (v : Word) : Env :=
  match p with
  | .p0l => { e with p0l := v }
  | .p0h => { e with p0h := v }
  | .p1l => { e with p1l := v }
  | .p1h => { e with p1h := v }
  | .p2 => { e with p2 := v }
  | .p3 => { e with p3 := v }
  | .p4 => { e with p4 := v }
  | .p5 => { e with p5 := v }
  | .p6 => { e with p6 := v }
  | .p7 => { e with p7 := v }
  | .p8 => { e with p8 := v }

/-- A byte changed in a cell by another agent: like a store, it may come after the fetch of an instruction there. -/
def State.foreignStore (s : State) (k : Nat) (v : Byte) : State :=
  { s with
    mem := s.mem.set k v
    sys := { s.sys with
      stored := if s.sys.stored.contains k then s.sys.stored else k :: s.sys.stored
      cacheStored :=
        if s.sys.jumpCache.isSome && !s.sys.cacheStored.contains k then k :: s.sys.cacheStored else s.sys.cacheStored } }

/-- An event of the CAN bus: it reaches an enabled module whose signals are on Port 4 (10_state.md R44, 64_can.md
R882). -/
def State.canEvent (s : State) (f : State → State) : State := if s.canOnPort then f s else s

/-- The X-Peripherals are open to another bus master: hold state, XPER-SHARE and XPEN set (10_state.md R44, 20_memory.md
R113, 61_peripherals_a.md R640). -/
def State.sharesXbus (s : State) : Bool := s.sys.hold && wbit s.core.syscon 0 && wbit s.core.syscon 2

/-- Another bus master writes a byte of the XRAM or of the CAN module. A write to the module that the spec does not
define is refused at the next step (U36, U39). -/
def State.xbusWrite (s : State) (a : Addr) (v : Byte) : State :=
  let n := a.toNat
  if !s.sharesXbus then s
  else if s.env.device.hasXram && decide (0xE000 ≤ n ∧ n < 0xE800) then s.foreignStore (xramCell n) v
  else if s.env.device.hasCan && decide (0xEF00 ≤ n ∧ n < 0xF000) then
    let k : Fin 256 := ⟨n % 256, Nat.mod_lt _ (by omega)⟩
    match s.canRefusal k v with
    | some r => { s with can := { s.can with badWrite := some r } }
    | none => (s.canWriteByte k v).canUpdate
  else s

/-- Another bus master reads a byte of an X-Peripheral: the CAN status byte acknowledges its interrupt (64_can.md R864). -/
def State.xbusRead (s : State) (a : Addr) : State :=
  if s.sharesXbus && s.env.device.hasCan && a.toNat == 0xEF01 then s.canReadStatus else s

/-- RSTIN goes low. DESIGN CHOICE (log 78): the hardware reset replaces a software or watchdog reset that is requested and
not yet made (70_reset_and_hazards.md R907 gives no order), and a power-on reset stays one. -/
def State.pullRstin (s : State) (powerOn : Bool) : State :=
  { s with sys := { s.sys with
      resetReq := some (.hardware (powerOn || s.sys.resetReq == some (.hardware true))) } }

/-- An event of the outside world while the clocks run. -/
def State.event (s : State) (e : EnvEvent) : State :=
  match e with
  | .pins p v => { s with env := s.env.drive p v }
  | .nmi level =>
    let t := { s with env := { s.env with nmi := level } }
    if s.env.nmi && !level then { t.raise tfrNmi with sys := { (t.raise tfrNmi).sys with nmiEdge := true } } else t
  | .ready level => { s with env := { s.env with ready := level } }
  | .rstin p => s.pullRstin p
  | .strap ea p0 => { s with env := { s.env with ea := ea, port0 := p0 } }
  | .analog ch v => { s with env := { s.env with analog := s.env.analog.set ch.val v } }
  | .pllUnlock => if s.env.device.hasPll then s.request Sfr.xp3ic else s
  | .extWrite cs a v => s.foreignStore (s.csCell cs.val a) v
  | .xbusWrite a v => s.xbusWrite a v
  | .xbusRead a => s.xbusRead a
  | .canRx f r t => s.canEvent (fun u => u.canRxFrame f r t)
  | .canTxDone r t => s.canEvent (fun u => u.canTxDone r t)
  | .canError code r t => s.canEvent (fun u => u.canBusError code r t)
  | .canRecessive => s.canEvent State.canRecessive
  | .canRecovered => s.canEvent State.canRecover
  | .boot _ _ => s

/-- An event while the clocks of the peripherals are stopped: only the levels, the external memory and RSTIN count
(49_system.md R453). -/
def State.eventAsleep (s : State) (e : EnvEvent) : State :=
  match e with
  | .pins _ _ | .ready _ | .rstin _ | .strap _ _ | .analog _ _ | .extWrite _ _ _ => s.event e
  | .nmi level => { s with env := { s.env with nmi := level } }
  | _ => s

/-- The events that are due now happen, in order; the next one comes one clock closer. -/
def applyDue : List (Nat × EnvEvent) → State → State
  | [], s => { s with env := { s.env with inbox := [] } }
  | (0, e) :: l, s => applyDue l (s.event e)
  | (n + 1, e) :: l, s => { s with env := { s.env with inbox := (n, e) :: l } }

/-- One CPU clock of the watchdog timer (61_peripherals_a.md R651, R652, D22): the prescaler counts the clocks since its
last start, modulo 128; WDT counts when its 2 or 128 divides them; an overflow requests a reset. DESIGN
CHOICE (log 78): it does not replace a reset that is requested already (70_reset_and_hazards.md R907 gives no order). -/
def State.wdtTick (s : State) : State :=
  if s.sys.wdtDisabled then s
  else
    let pre := (s.sys.wdtPre + 1) % 128
    let s := { s with sys := { s.sys with wdtPre := pre } }
    if pre % (if s.regBit Sfr.wdtcon 0 then 128 else 2) ≠ 0 then s
    else if s.reg Sfr.wdt = 0xFFFF then { s with sys := { s.sys with resetReq := s.sys.resetReq.or (some .watchdog) } }
    else s.setReg Sfr.wdt (s.reg Sfr.wdt + 1)

/-- Bus arbitration: while HLDEN is set the hold state follows pin HOLD, P6.5, which HLDEN has made an input; it ends
only with the pin (R612, R640). In idle mode HLDA and CSx keep their last value (61_peripherals_a.md R670): the hold state
stays as it is, DESIGN CHOICE (log 53) but while a PEC transfer waits for the bus. -/
def State.holdTick (s : State) : State :=
  if s.sys.cpu == .idle && s.sys.pecWait.isNone then s
  else { s with sys := { s.sys with hold := (s.sys.hold || wbit s.core.psw 10) && !wbit s.env.p6 5 } }

/-- The units that count in every CPU clock `k`, and those with slower ticks (62_peripherals_b.md R685, R703,
63_peripherals_c.md R765, R804, D23). DESIGN CHOICE (log 73): GPT2 comes before CAPCOM, so that an overflow of T6 in the
CPU clock of a CAPCOM step counts in that step (R709, R776, R779). DESIGN CHOICE (log 77): CAPCOM comes before the A/D
converter, so that ADCRQ set by channel CC31 is seen by the converter in the same clock (R777, R835); the order of the other
units in one clock is chosen too. -/
def State.units (s : State) (k : Nat) : State :=
  let s := if k % 4 = 0 then s.gpt2Tick (k / 4) else s
  let s := if k % 8 = 0 then (s.gpt1Tick (k / 8)).capcomTick (k / 8) else s
  let s := (((s.pwmTick k).ascTick).sscTick).adcTick
  if s.canOn then s.canTick else s

/-- One CPU clock. -/
def State.tick (s : State) : State :=
  let s := (applyDue s.env.inbox s).holdTick
  let s := { s with clock := s.clock + 1 }
  ((s.units s.clock).fastExternal).wdtTick

/-- `n` CPU clocks. -/
def State.clocks : Nat → State → State
  | 0, s => s
  | n + 1, s => State.clocks n s.tick

/-- A change that the hardware made to the bits `m` of register `r` is overwritten by the word `w` of software. In SSCCON,
while it shows the status set, that set is written. In TFR it is the flag NMI that an edge at the pin sets; cleared, its
request is withdrawn (60_exceptions.md R550). -/
def State.overwrite (t : State) (r : Sfr) (w m : Word) : State :=
  if r = Sfr.tfr then
    if wbit m 15 && !wbit w 15 then
      { t with
        core := { t.core with tfr := wset t.core.tfr 15 false }
        sys := { t.sys with treq := wset t.sys.treq 15 false } }
    else t
  else if r = Sfr.ssccon then
    if t.regBit Sfr.ssccon 15 then
      { t with ssc := { t.ssc with status := (t.ssc.status &&& ~~~(m &&& 0x1F00)) ||| (w &&& m &&& 0x1F00) } }
    else t
  else t.setReg r ((t.reg r &&& ~~~m) ||| (w &&& m))

/-- The first clock after a write of a register by software: what the hardware changed in it in the bits written may have
been changed in the state of the write, and is then lost, as a free choice (10_state.md R62 (c), 20_memory.md R135; log
42). -/
def State.sameState (t : State) : State :=
  match t.sys.wrote with
  | none => t
  | some w => if Config.freeBool .sameState t.free 0 then t.overwrite w.reg w.word w.same else t

/-- The end of a read-modify-write: what the hardware changed meanwhile in the open bits may be lost, as a free choice
(20_memory.md R133, R134, 43_bit.md R312; log 42). -/
def State.lostUpdate (t : State) : State :=
  match t.sys.wrote with
  | none => t
  | some w =>
    let t := { t with sys := { t.sys with wrote := none } }
    if Config.freeBool .lostUpdate t.free 0 then t.overwrite w.reg w.word w.lost else t

/-- The clocks of one instruction or injected sequence: one machine cycle of two clocks, and a free number more
(70_reset_and_hazards.md R930, 92_eei_decisions.md D1), with the races of its register write; the bus controller has used
its ports meanwhile. -/
def State.pass (s : State) : State :=
  ((State.clocks (1 + Config.freeNat .clocks s.free 0) s.tick.sameState).lostUpdate).busLatches

end Sys2Proof.Machine
end

