-- ==== Sys2Proof/Machine/Act.lean ====
section
/-! DEFINITION. How a meaning is written: a computation over the state that ends in a next state, a fault, a refusal,
or waits for the external bus. -/
namespace Sys2Proof.Machine

/-- Why a computation stops before its end. -/
inductive Stop
  | fault (f : Fault)
  | refused (r : Refusal)
  /-- an external bus cycle cannot complete: the instruction starts again later (61_peripherals_a.md R628, R640); what
  the cycle would write -/
  | wait (pending : List (Nat × Byte))
deriving DecidableEq, Repr

/-- A computation over the state. -/
abbrev Act (α : Type) := StateT State (Except Stop) α

/-- Stop with a refusal. -/
def refuse {α : Type} (r : Refusal) : Act α := fun _ => .error (.refused r)

/-- Stop with a fault. -/
def faultAt {α : Type} (f : Fault) : Act α := fun _ => .error (.fault f)

/-- Wait for the bus, with what the cycle would write. -/
def waitBus {α : Type} (pending : List (Nat × Byte)) : Act α := fun _ => .error (.wait pending)

/-- Read a value of the state. -/
def look {α : Type} (f : State → α) : Act α := fun s => .ok (f s, s)

/-- Change the state. -/
def change (f : State → State) : Act Unit := fun s => .ok ((), f s)

/-- The outcome of an instruction. -/
abbrev Result := Host.Outcome State Fault Refusal

/-- The state marked as waiting for the bus, with what the waiting cycle would write. -/
def State.waits (s : State) (w : List (Nat × Byte)) : State :=
  { s with sys := { s.sys with waiting := true }, bus := { s.bus with pending := w } }

/-- The outcome of a meaning. One that waits leaves the state as it was and marks it as waiting. -/
def Act.toOutcome (a : Act Unit) (s : State) : Result :=
  match a s with
  | .ok (_, s') => .next s'
  | .error (.fault f) => .fault f
  | .error (.refused r) => .refused r
  | .error (.wait w) => .next (s.waits w)

end Sys2Proof.Machine
end

