-- ==== Sys2Proof/Machine/Ops.lean ====
section
/-! DEFINITION. The named operations over memory and registers: data accesses by physical address, general purpose
registers, short addresses, the system stack, the program counter, taking a trap and returning from one. -/
namespace Sys2Proof.Machine

/-! ## Values that the last instruction replaced (70_reset_and_hazards.md R920) -/

/-- A register as an instruction sees it: `now` at its start, or the value `old` that the instruction before it
replaced, by a free choice. -/
def hazard (p : Config.Point) (s : State) (i : Nat) {α : Type} (old : Option α) (now : α) : α :=
  match old with
  | none => now
  | some o => if Config.freeBool p s.free i then o else now

/-- CP as this instruction uses it (R921): its own write comes later. -/
def State.effCp (s : State) : Word := hazard .oldCp s 0 s.sys.lag.cp (s.sys.lagNext.cp.getD s.core.cp)

/-- DPPn as this instruction uses it (R922). -/
def State.effDpp (s : State) (n : Fin 4) : Word :=
  hazard .oldDpp s n.val s.sys.lag.dpp[n.val] (s.sys.lagNext.dpp[n.val].getD s.core.dpp[n.val])

/-- SP as a popping instruction uses it (R923). -/
def State.effSp (s : State) : Word := hazard .oldSp s 0 s.sys.lag.sp s.core.sp

/-- SYSCON, BUSCONx and ADDRSELx as this instruction uses them (R925, R927). -/
def State.effMap (s : State) : BusMap := hazard .oldMap s 0 s.sys.lag.map (s.sys.lagNext.map.getD s.busMap)

/-- Segmentation disabled, as this instruction sees it. -/
def State.sgtdis (s : State) : Bool := wbit s.effMap.syscon 11

/-! ## Traps -/

/-- Set trap flags and request their traps. -/
def raiseTrap (mask : Word) : Act Unit := change (fun s => s.raise mask)

/-- A free value of this step. -/
def openWord (p : Config.Point) (i : Nat) : Act Word := look (fun s => Config.freeWord p s.free i)

/-! ## Memory cells -/

/-- The list with `k` in it. -/
def addCell (k : Nat) (l : List Nat) : List Nat := if l.contains k then l else k :: l

/-- A byte stored into a cell by the program: a later fetch of it may see the old byte (20_memory.md R154). -/
def State.storeCell (s : State) (k : Nat) (v : Byte) : State :=
  { s with
    mem := s.mem.set k v
    sys := { s.sys with
      stored := addCell k s.sys.stored
      cacheStored := if s.sys.jumpCache.isSome then addCell k s.sys.cacheStored else s.sys.cacheStored } }

/-- A word stored into two cells, low byte first (20_memory.md R101). -/
def State.storeWord (s : State) (k : Nat) (v : Word) : State :=
  (s.storeCell k (loByte v)).storeCell (k + 1) (hiByte v)

/-! ## Special function registers -/

/-- The register exists (11_sfr_map.md R87, R89). -/
def checkSfr (r : Sfr) : Act Unit :=
  if r.val < 16 then faultAt (.reservedArea r.addr)
  else if r.row?.isNone then faultAt (.noRegister r.addr)
  else pure ()

/-- Software reads a register. -/
def readSfr (r : Sfr) : Act Word := do
  checkSfr r
  let v ← look (fun s => s.sfrValue r)
  change (fun s => s.afterSfrRead r)
  pure v

/-- Software writes a register; `named` are the bits the instruction means to write. -/
def writeSfrBits (r : Sfr) (v named : Word) : Act Unit := do
  checkSfr r
  match ← look (fun s => s.sfrRefusal r) with
  | some e => refuse e
  | none => change (fun s => s.storeSfr r v named)

/-- Software writes a whole register. -/
def writeSfr (r : Sfr) (v : Word) : Act Unit := writeSfrBits r v 0xFFFF

/-! ## The CAN module -/

/-- A read of bytes of the CAN module: the status byte acknowledges the status interrupt (64_can.md R864). -/
def canAck (k : Fin 256) : Act Unit := if k.val = 1 then change State.canReadStatus else pure ()

/-- Software reads a byte of the CAN module. -/
def readCanByte (k : Fin 256) : Act Byte := do
  let v ← look (fun s => s.canRead k)
  canAck k
  pure v

/-- Software reads a word of the CAN module, `k` even. -/
def readCanWord (k : Fin 256) : Act Word := do
  let hi : Fin 256 := ⟨(k.val + 1) % 256, Nat.mod_lt _ (by omega)⟩
  let v ← look (fun s => mkWord (s.canRead k) (s.canRead hi))
  canAck hi
  pure v

/-- Software writes bytes of the CAN module. -/
def writeCan (bytes : List (Fin 256 × Byte)) : Act Unit := do
  match ← look (fun s => bytes.findSome? (fun b => s.canRefusal b.1 b.2)) with
  | some e => refuse e
  | none => change (fun s => (bytes.foldl (fun t b => t.canWriteByte b.1 b.2) s).canUpdate)

/-! ## Data accesses by physical address (20_memory.md chapter 2) -/

/-- A data access to an area whose cell is `k`: the bus lines show it, and what an external write replaces is remembered
for a reset that aborts it (70_reset_and_hazards.md R901, U41). -/
def State.access (s : State) (area : Area) (a : Addr) (c : Access) (k : Nat) : State :=
  let undo :=
    match area with
    | .ext _ => if c.writes then some (s.free, (c.cells k).map (fun e => (e.1, s.mem.get e.1))) else s.bus.undo
    | _ => s.bus.undo
  { s with bus := { s.busAfter (busAccess s.effMap area a c.word) with undo := undo } }

/-- What an access at an address of this kind does before it reaches cells: stops where the spec gives nothing, waits
for the bus, or names the first cell and shows itself on the bus lines. Chip select and READY follow the mapping that the
access sees, the old or the new one after an update (70_reset_and_hazards.md R927). In bootstrap loader mode a device
without ROM delivers undefined data there (61_peripherals_a.md R662). -/
def cellOf (a : Addr) (area : Area) (c : Access) : Act (Option Nat) :=
  match area with
  | .iram => pure (some (iramCell a.toNat))
  | .xram => do
    change (fun s => s.access area a c 0)
    pure (some (xramCell a.toNat))
  | .rom off => pure (some (romCell off))
  | .romAbsent => do
    if ← look (fun s => s.sys.bslMode) then pure none else refuse .romAbsent
  | .reserved => faultAt (.reservedArea a.toNat)
  | .badWindow => refuse .reservedWindow
  | .overlap => refuse .overlappingWindows
  | .ext x => do
    let k ← look (fun s => s.extCell s.effMap x c.writes a)
    let hold ← look (fun s => s.sys.hold)
    if ← look (fun s => s.busBlocked s.effMap x) then waitBus (if hold then [] else c.cells k) else pure ()
    change (fun s => s.access area a c k)
    pure (some k)
  | .noBus => do
    raiseTrap tfrIllbus
    pure none
  | .sfr _ | .can _ => pure none

/-- The area of an address as this instruction sees it. -/
def areaAt (a : Addr) : Act Area := look (fun s => areaOf s.env.device s.effMap a)

/-- Read a word at a physical address. An odd address raises ILLOPA and reads a free value (R104, U14); without an
external bus ILLBUS is raised and a free value read (U23). -/
def readWord (a : Addr) : Act Word := do
  if a.toNat % 2 = 1 then
    raiseTrap tfrIllopa
    openWord .oddRead a.toNat
  else
    match ← areaAt a with
    | .sfr r => readSfr r
    | .can k =>
      change (fun s => s.access (.can k) a (.read true) 0)
      readCanWord k
    | area =>
      match ← cellOf a area (.read true) with
      | some k => look (fun s => s.mem.getWord k)
      | none => openWord .busErrorRead a.toNat

/-- Read a byte at a physical address. -/
def readByte (a : Addr) : Act Byte := do
  match ← areaAt a with
  | .sfr r =>
    let v ← readSfr r
    pure (if a.toNat % 2 = 1 then hiByte v else loByte v)
  | .can k =>
    change (fun s => s.access (.can k) a (.read false) 0)
    readCanByte k
  | area =>
    match ← cellOf a area (.read false) with
    | some k => look (fun s => s.mem.get k)
    | none =>
      let v ← openWord .busErrorRead a.toNat
      pure (loByte v)

/-- The internal ROM cannot be written (R107, U12, U15). -/
def checkRom (area : Area) : Act Unit :=
  match area with
  | .rom _ => refuse .romWrite
  | .romAbsent => refuse .romAbsent
  | _ => pure ()

/-- Write a word at a physical address; an odd address raises ILLOPA and nothing is written (R104, U14). -/
def writeWord (a : Addr) (v : Word) : Act Unit := do
  if a.toNat % 2 = 1 then raiseTrap tfrIllopa
  else
    match ← areaAt a with
    | .sfr r => writeSfr r v
    | .can k =>
      let hi : Fin 256 := ⟨(k.val + 1) % 256, Nat.mod_lt _ (by omega)⟩
      change (fun s => s.access (.can k) a (.ofWord v) 0)
      writeCan [(k, loByte v), (hi, hiByte v)]
    | area =>
      checkRom area
      match ← cellOf a area (.ofWord v) with
      | some k => change (fun s => s.storeWord k v)
      | none => pure ()

/-- Write a byte at a physical address. In a register the other byte is cleared (10_state.md R62 (a)). -/
def writeByte (a : Addr) (v : Byte) : Act Unit := do
  match ← areaAt a with
  | .sfr r => writeSfr r (if a.toNat % 2 = 1 then mkWord 0 v else mkWord v 0)
  | .can k =>
    change (fun s => s.access (.can k) a (.ofByte v) 0)
    writeCan [(k, v)]
  | area =>
    checkRom area
    match ← cellOf a area (.ofByte v) with
    | some k => change (fun s => s.storeCell k v)
    | none => pure ()

/-! ## General purpose registers (10_state.md chapter 2) -/

/-- The cell at offset `off` of the register bank, if the internal RAM holds it and `width - 1` further bytes (R25). -/
def gprCell (off width : Nat) : Act Nat := do
  let a ← look (fun s => s.effCp.toNat + off)
  if 0xF600 ≤ a ∧ a + width ≤ 0xFE00 then pure (iramCell a) else refuse .gprOutsideIram

/-- Read Rn. -/
def readGpr (n : Gpr) : Act Word := do
  let k ← gprCell (2 * n.toNat) 2
  look (fun s => s.mem.getWord k)

/-- Write Rn. -/
def writeGpr (n : Gpr) (v : Word) : Act Unit := do
  let k ← gprCell (2 * n.toNat) 2
  change (fun s => s.storeWord k v)

/-- Read a byte GPR: RL0, RH0, RL1, ... (R22). -/
def readGprB (n : Gpr) : Act Byte := do
  let k ← gprCell n.toNat 1
  look (fun s => s.mem.get k)

/-- Write a byte GPR. -/
def writeGprB (n : Gpr) (v : Byte) : Act Unit := do
  let k ← gprCell n.toNat 1
  change (fun s => s.storeCell k v)

/-! ## Short addresses `reg` and `bitoff` (30_encoding.md R166, R170) -/

/-- A `reg` or `bitoff` code that names a GPR. -/
def isGprCode (r : Byte) : Bool := decide (0xF0 ≤ r.toNat)

/-- The GPR a code names: its low four bits (10_state.md R26). -/
def gprOfCode (r : Byte) : Gpr := r.setWidth 4

/-- The SFR, or inside EXTR the ESFR, a code names (11_sfr_map.md R81). -/
def sfrOfCode (r : Byte) : Act Sfr := look (fun s => Sfr.ofReg s.sys.ext.esfr r)

/-- Read the word a `reg` operand names. -/
def readReg (r : Byte) : Act Word := do
  if isGprCode r then readGpr (gprOfCode r)
  else
    let x ← sfrOfCode r
    readSfr x

/-- Write the word a `reg` operand names. -/
def writeReg (r : Byte) (v : Word) : Act Unit := do
  if isGprCode r then writeGpr (gprOfCode r) v
  else
    let x ← sfrOfCode r
    writeSfr x v

/-- Read the byte a `reg` operand names: a byte GPR or the low byte of a register (11_sfr_map.md R80). -/
def readRegB (r : Byte) : Act Byte := do
  if isGprCode r then readGprB (gprOfCode r)
  else
    let x ← sfrOfCode r
    let v ← readSfr x
    pure (loByte v)

/-- Write the byte a `reg` operand names; the high byte of a register becomes 0 (20_memory.md R130). -/
def writeRegB (r : Byte) (v : Byte) : Act Unit := do
  if isGprCode r then writeGprB (gprOfCode r) v
  else
    let x ← sfrOfCode r
    writeSfr x (mkWord v 0)

/-- What a `bitoff` operand names. -/
inductive BitLoc
  | iram (k : Nat)
  | gpr (n : Gpr)
  | sfr (r : Sfr)

/-- The location of a `bitoff` (30_encoding.md R170): 00h..7Fh the words from 00'FD00h, 80h..EFh registers, F0h..FFh
GPRs. -/
def bitLoc (b : Byte) : Act BitLoc :=
  if b.toNat < 0x80 then pure (.iram (iramCell (0xFD00 + 2 * b.toNat)))
  else if isGprCode b then pure (.gpr (gprOfCode b))
  else do
    let x ← sfrOfCode b
    pure (.sfr x)

/-- Read the word of a bit operand. -/
def readBitLoc (l : BitLoc) : Act Word :=
  match l with
  | .iram k => look (fun s => s.mem.getWord k)
  | .gpr n => readGpr n
  | .sfr r => readSfr r

/-- The bits that a bit instruction writes back to a register: in one with protected bits only the bits `named`,
elsewhere the whole word (20_memory.md R133, R134, 43_bit.md R311). All bits of P2, P7 and P8 are protected (log 49). -/
def Sfr.backMask (r : Sfr) (named : Word) : Word := if r.isProtected then named else 0xFFFF

/-- The bits of a register in which a bit instruction can lose what the hardware changed meanwhile: those it writes back,
and the unprotected ones, the other bits of a word with protected bits among them, where R134 would keep the change and R312
allows it to be lost (log 42). -/
def Sfr.bitLost (r : Sfr) (named : Word) : Word := r.backMask named ||| r.unprotected

/-- The word that a bit instruction writes back to a register: `v` in the bits written back, elsewhere what it holds. -/
def State.writtenBack (s : State) (r : Sfr) (v named : Word) : Word :=
  (s.sfrHeld r &&& ~~~r.backMask named) ||| (v &&& r.backMask named)

/-- The write just noted of register `r` ended a read-modify-write: a change by the hardware between its read and its
write is lost in the bits `m`, as a free choice at the end of the instruction (R133, R134, 41_logical.md R260, 43_bit.md
R312; log 42). -/
def State.noteRmw (s : State) (r : Sfr) (m : Word) : State :=
  { s with sys := { s.sys with wrote := s.sys.wrote.map (fun w => if w.reg = r then { w with lost := m &&& r.mask } else w) } }

/-- Write back the word of a bit operand. -/
def writeBitLoc (l : BitLoc) (v named : Word) : Act Unit :=
  match l with
  | .iram k => change (fun s => s.storeWord k v)
  | .gpr n => writeGpr n v
  | .sfr r => do
    let w ← look (fun s => s.writtenBack r v named)
    writeSfrBits r w (r.backMask named)
    change (fun s => s.noteRmw r (r.bitLost named))

/-! ## Data address translation (20_memory.md R120) -/

/-- The physical address of a 16-bit data address. Whether SGTDIS = 1 truncates an override to segment 0 is free
(U17). With SGTDIS = 1 a DPP write acts at once (70_reset_and_hazards.md R922). -/
def State.dataAddr (s : State) (a : Word) : Addr :=
  match s.sys.ext.ovr with
  | .page p =>
    let p := if s.sgtdis && Config.freeBool .overrideTruncated s.free 0 then p &&& 3 else p
    p ++ a.extractLsb' 0 14
  | .seg g =>
    let g := if s.sgtdis && Config.freeBool .overrideTruncated s.free 0 then 0 else g
    g ++ a
  | .none =>
    let n : Fin 4 := ⟨a.toNat / 0x4000, by omega⟩
    let d : Word := if s.sgtdis then s.sys.lagNext.dpp[n.val].getD s.core.dpp[n.val] else s.effDpp n
    let p : BitVec 10 := d.extractLsb' 0 10
    (if s.sgtdis then p &&& 3 else p) ++ a.extractLsb' 0 14

/-- Read the word at a 16-bit data address. -/
def readMem (a : Word) : Act Word := do
  let p ← look (fun s => s.dataAddr a)
  readWord p

/-- Write the word at a 16-bit data address. -/
def writeMem (a : Word) (v : Word) : Act Unit := do
  let p ← look (fun s => s.dataAddr a)
  writeWord p v

/-- Read the byte at a 16-bit data address. -/
def readMemB (a : Word) : Act Byte := do
  let p ← look (fun s => s.dataAddr a)
  readByte p

/-- Write the byte at a 16-bit data address. -/
def writeMemB (a : Word) (v : Byte) : Act Unit := do
  let p ← look (fun s => s.dataAddr a)
  writeByte p v

/-! ## The system stack (10_state.md R47, R51 to R55; 46_stack.md R390, R391) -/

/-- Significant bits of SP by STKSZ (R47), none for the reserved values. -/
def stackBits (stksz : Nat) : Option Nat :=
  match stksz with
  | 0 => some 9
  | 1 => some 8
  | 2 => some 7
  | 3 => some 6
  | 4 => some 10
  | 7 => some 12
  | _ => none

/-- The physical stack address (R55). -/
def stackAddr (k : Nat) (sp : Word) : Word :=
  let m : Word := BitVec.ofNat 16 (2 ^ k - 1)
  (0xFBFE &&& ~~~m) ||| (sp &&& m)

/-- The cell of a stack word. -/
def stackCell (sp : Word) : Act Nat := do
  match ← look (fun s => stackBits (fieldNat s.effMap.syscon 13 3)) with
  | none => refuse .reservedStackSize
  | some k =>
    let a := (stackAddr k sp).toNat
    if 0xF600 ≤ a ∧ a < 0xFE00 then pure (iramCell a) else refuse .stackOutsideIram

/-- Set SP as the hardware does, without a hazard. -/
def State.setSp (s : State) (v : Word) : State := { s with core := { s.core with sp := v } }

/-- Push a word: SP is decremented first; below STKOV the trap is requested (R52, R390). -/
def push (v : Word) : Act Unit := do
  let sp ← look (fun s => stackNorm (s.core.sp - 2))
  let k ← stackCell sp
  change (fun s => (s.storeWord k v).setSp sp)
  if ← look (fun s => decide (sp < s.core.stkov)) then raiseTrap tfrStkof else pure ()

/-- Pop a word: SP is incremented after the read; above STKUN the trap is requested (R53, R391). A following pop of the
same instruction uses the SP of this one. -/
def pop : Act Word := do
  let sp ← look State.effSp
  let k ← stackCell sp
  let v ← look (fun s => s.mem.getWord k)
  let sp' := stackNorm (sp + 2)
  change (fun s => { s.setSp sp' with sys := { s.sys with lag := { s.sys.lag with sp := none } } })
  if ← look (fun s => decide (s.core.stkun < sp')) then raiseTrap tfrStkuf else pure ()
  pure v

/-! ## The program counter (10_state.md R28 to R31) -/

/-- The end of an instruction of `len` bytes that does not branch (R29). Leaving the segment or the memory area is
noted: the next fetch is refused (U5). -/
def State.advance (s : State) (len : Nat) : State :=
  let ip := s.core.ip + BitVec.ofNat 16 len
  let region := fun a => codeRegion s.env.device s.core.syscon (s.codeAddr s.busMap a)
  { s with
    core := { s.core with ip := ip }
    sys := { s.sys with crossed := decide (ip < s.core.ip) || region ip != region s.core.ip } }

/-- The end of an instruction that does not branch. -/
def next (len : Nat) : Act Unit := change (fun s => s.advance len)

/-- A branch has set the program counter: the prefetched instructions are gone; an odd target raises ILLINA
(60_exceptions.md R563). The mark of a crossed boundary goes too: DESIGN CHOICE (log 44) where an interrupt or trap is
taken right behind the boundary and RETI comes back to it. -/
def State.branch (s : State) (ip : Word) : State :=
  let s := { s with
    core := { s.core with ip := ip }, sys := { s.sys with crossed := false, stored := [], flushed := true } }
  if wbit ip 0 then s.raise tfrIllina else s

/-- Branch within the segment. -/
def jump (ip : Word) : Act Unit := change (fun s => s.branch ip)

/-- An absolute branch, JMPA, JMPS, CALLA or CALLS, to `ip` in the segment of CSP: it ends the use of replaced mappings by
fetches in the changed area it goes to (70_reset_and_hazards.md R925, R927). -/
def State.reached (s : State) (ip : Word) : State :=
  let a := s.codeAddr s.busMap ip
  { s with sys := { s.sys with
      oldMaps := s.sys.oldMaps.map (fun c => c.reach s.env.device (wbit s.core.syscon 11) a) } }

/-- An absolute branch to `ip`. -/
def absolute (ip : Word) : Act Unit := change (fun s => s.reached ip)

/-- A branch to a vector, which lies in segment 0 whatever mapping the fetch uses (20_memory.md R121): the use of a
replaced segmentation ends. -/
def State.vectored (s : State) : State :=
  { s with sys := { s.sys with oldMaps := s.sys.oldMaps.map (MapChange.segment (wbit s.core.syscon 11)) } }

/-- The jump cache becomes empty (R931). -/
def State.emptyCache (s : State) : State := { s with sys := { s.sys with jumpCache := none, cacheStored := [] } }

/-- The jump cache becomes empty. -/
def flushCache : Act Unit := change State.emptyCache

/-- Load CSP. -/
def setCsp (v : Byte) : Act Unit := change (fun s => { s with core := { s.core with csp := v } })

/-- A taken cache jump stores its target in the jump cache; the same jump taken again finds it there (R931). -/
def State.fillCache (s : State) (target : Word) : State :=
  let e := (s.pcAddr.toNat, (s.codeAddr s.busMap target).toNat)
  if s.sys.jumpCache = some e then { s with sys := { s.sys with cacheHit := true } }
  else { s with sys := { s.sys with jumpCache := some e, cacheStored := [] } }

/-- A taken cache jump. -/
def cacheJump (target : Word) : Act Unit := do
  change (fun s => s.fillCache target)
  jump target

/-! ## Taking an exception and returning from one (60_exceptions.md R540, 48_call_return.md R436) -/

/-- Set PSW as the hardware does. -/
def State.setPsw (s : State) (v : Word) : State :=
  { s with core := { s.core with psw := v }, sys := { s.sys with hldenOnce := s.sys.hldenOnce || wbit v 10 } }

/-- PSW on entry. An interrupt or a hardware trap sets ILVL to its level, and MULIP tells whether it interrupted a
multiply or divide (R540, R542; that an entry which interrupted none clears MULIP is DEDUCED, log 5). TRAP changes
nothing. -/
def entryPsw (psw : Word) (level : Option (BitVec 4)) (mulip : Bool) : Word :=
  match level with
  | some l => wset ((psw &&& 0x0FFF) ||| (l.setWidth 16 <<< 12)) 5 mulip
  | none => psw

/-- CSP is cleared by an entry: by every interrupt and hardware trap, since SGTDIS changes only what is stacked
(10_state.md R30, 90_conflicts.md C23; DEDUCED, log 43), and by TRAP with segmentation (48_call_return.md R426, G8), as
TRAP sees SYSCON or as the fetch of its vector does, which is to be in segment 0 (20_memory.md R121). -/
def State.entryClears (s : State) (level : Option (BitVec 4)) : Bool :=
  level.isSome || !s.sgtdis || !wbit s.core.syscon 11

/-- An entry has pushed what it saves: PSW gets its new value, CSP is cleared where the entry clears it, and the jump cache
becomes empty (R540). -/
def State.entered (s : State) (psw : Word) (clear : Bool) : State :=
  let t := (s.setPsw psw).vectored.emptyCache
  if clear then { t with core := { t.core with csp := 0 } } else t

/-- The entry sequence `Enter(n, level, ret)` (R540): PSW, with segmentation CSP, and the return offset are pushed; the
program continues at the vector 4n in segment 0. The TRAP instruction and, through `enterHardware`, interrupts and hardware
traps use it. -/
def enter (n : Nat) (level : Option (BitVec 4)) (ret : Word) (mulip : Bool) : Act Unit := do
  let psw ← look (fun s => s.core.psw)
  let csp ← look (fun s => s.core.csp)
  let seg ← look (fun s => !s.sgtdis)
  let clear ← look (fun s => s.entryClears level)
  push psw
  if seg then push (csp.setWidth 16)
  push ret
  change (fun s => s.entered (entryPsw psw level mulip) clear)
  jump (BitVec.ofNat 16 (4 * n))

/-- Taking an interrupt or a hardware trap: the entry sequence, and the extension counter is cleared (R540, D15). Its
pushes have used the new SP, so that no popping instruction after them sees an older one. With SGTDIS = 1 CSP is cleared
too, as R30, R121 and C23 have it, against the remark of R540 and the end of R595: DEDUCED (log 43). DESIGN CHOICE (log 65):
the arbitration history of a PSW write is dropped. -/
def enterHardware (n : Nat) (level : BitVec 4) (ret : Word) (mulip : Bool) : Act Unit := do
  enter n (some level) ret mulip
  change (fun s => { s with sys := { s.sys with
    ext := { count := 0, esfr := false, ovr := .none }, pswHist := none, lag := { s.sys.lag with sp := none } } })

/-- The trap routine state after RETI: the innermost class is left, and the traps whose flags are still set are requested
again (60_exceptions.md R547, R550). -/
def State.leaveTrap (s : State) : State :=
  { s with sys := { s.sys with
      inB := s.sys.inA && s.sys.inB
      inA := false
      treq := s.sys.treq ||| s.core.tfr
      retiDelay := 3
      pswHist := none } }

/-- The return from an exception: IP, with segmentation CSP, and PSW are popped; a set MULIP in the PSW of the routine
left makes the next instruction the interrupted multiply or divide (48_call_return.md R436, 60_exceptions.md R545). -/
def returnFromTrap : Act Unit := do
  let mulip ← look (fun s => wbit s.core.psw 5)
  let seg ← look (fun s => !s.sgtdis)
  let ip ← pop
  if seg then do
    let csp ← pop
    setCsp (loByte csp)
  let psw ← pop
  change (fun s => s.setPsw (psw &&& 0xFC7F))
  change State.leaveTrap
  change (fun s => { s with sys := { s.sys with resume := mulip } })
  flushCache
  jump ip

end Sys2Proof.Machine
end

