-- ==== Sys2Proof/Syntax.lean ====
section
/-! DEFINITION. The instructions of the C167, one constructor for each row of the opcode table (30_encoding.md R190,
opcode_table.json); the 16 rows each of BCLR, BSET and JMPR, which differ only in the operand that the opcode's high
nibble holds (the bit position `q`, the condition `cc`), are one constructor with that operand. Operands are named as the table names them: `rn`, `rm` a GPR number, `ri` one of R0..R3, `reg` a
short register address, `mem` a 16-bit data address, `caddr` a code address, `d` an immediate. -/
namespace Sys2Proof

/-- Condition codes, numbered 0h..Fh in this order (30_encoding.md R175). -/
inductive Cc
  | uc | net | z | nz | v | nv | n | nn | c | nc | sgt | sle | slt | sge | ugt | ule
deriving DecidableEq, Repr

/-- An instruction with its operands. -/
inductive Instr
  /-- ADD Rwn, Rwm (R221) -/
  | addRR (rn : Gpr) (rm : Gpr)
  /-- ADD Rwn, [Rwi] (R221) -/
  | addRI (rn : Gpr) (ri : BitVec 2)
  /-- ADD Rwn, [Rwi+] (R221) -/
  | addRIP (rn : Gpr) (ri : BitVec 2)
  /-- ADD Rwn, #data3 (R221) -/
  | addR3 (rn : Gpr) (d : BitVec 3)
  /-- ADD reg, #data16 (R221) -/
  | addRegImm (reg : Byte) (d : Word)
  /-- ADD reg, mem (R221) -/
  | addRegMem (reg : Byte) (mem : Word)
  /-- ADD mem, reg (R221) -/
  | addMemReg (mem : Word) (reg : Byte)
  /-- ADDB Rbn, Rbm (R222) -/
  | addbRR (rn : Gpr) (rm : Gpr)
  /-- ADDB Rbn, [Rwi] (R222) -/
  | addbRI (rn : Gpr) (ri : BitVec 2)
  /-- ADDB Rbn, [Rwi+] (R222) -/
  | addbRIP (rn : Gpr) (ri : BitVec 2)
  /-- ADDB Rbn, #data3 (R222) -/
  | addbR3 (rn : Gpr) (d : BitVec 3)
  /-- ADDB reg, #data8 (R222) -/
  | addbRegImm (reg : Byte) (d : Byte)
  /-- ADDB reg, mem (R222) -/
  | addbRegMem (reg : Byte) (mem : Word)
  /-- ADDB mem, reg (R222) -/
  | addbMemReg (mem : Word) (reg : Byte)
  /-- ADDC Rwn, Rwm (R223) -/
  | addcRR (rn : Gpr) (rm : Gpr)
  /-- ADDC Rwn, [Rwi] (R223) -/
  | addcRI (rn : Gpr) (ri : BitVec 2)
  /-- ADDC Rwn, [Rwi+] (R223) -/
  | addcRIP (rn : Gpr) (ri : BitVec 2)
  /-- ADDC Rwn, #data3 (R223) -/
  | addcR3 (rn : Gpr) (d : BitVec 3)
  /-- ADDC reg, #data16 (R223) -/
  | addcRegImm (reg : Byte) (d : Word)
  /-- ADDC reg, mem (R223) -/
  | addcRegMem (reg : Byte) (mem : Word)
  /-- ADDC mem, reg (R223) -/
  | addcMemReg (mem : Word) (reg : Byte)
  /-- ADDCB Rbn, Rbm (R224) -/
  | addcbRR (rn : Gpr) (rm : Gpr)
  /-- ADDCB Rbn, [Rwi] (R224) -/
  | addcbRI (rn : Gpr) (ri : BitVec 2)
  /-- ADDCB Rbn, [Rwi+] (R224) -/
  | addcbRIP (rn : Gpr) (ri : BitVec 2)
  /-- ADDCB Rbn, #data3 (R224) -/
  | addcbR3 (rn : Gpr) (d : BitVec 3)
  /-- ADDCB reg, #data8 (R224) -/
  | addcbRegImm (reg : Byte) (d : Byte)
  /-- ADDCB reg, mem (R224) -/
  | addcbRegMem (reg : Byte) (mem : Word)
  /-- ADDCB mem, reg (R224) -/
  | addcbMemReg (mem : Word) (reg : Byte)
  /-- SUB Rwn, Rwm (R225) -/
  | subRR (rn : Gpr) (rm : Gpr)
  /-- SUB Rwn, [Rwi] (R225) -/
  | subRI (rn : Gpr) (ri : BitVec 2)
  /-- SUB Rwn, [Rwi+] (R225) -/
  | subRIP (rn : Gpr) (ri : BitVec 2)
  /-- SUB Rwn, #data3 (R225) -/
  | subR3 (rn : Gpr) (d : BitVec 3)
  /-- SUB reg, #data16 (R225) -/
  | subRegImm (reg : Byte) (d : Word)
  /-- SUB reg, mem (R225) -/
  | subRegMem (reg : Byte) (mem : Word)
  /-- SUB mem, reg (R225) -/
  | subMemReg (mem : Word) (reg : Byte)
  /-- SUBB Rbn, Rbm (R226) -/
  | subbRR (rn : Gpr) (rm : Gpr)
  /-- SUBB Rbn, [Rwi] (R226) -/
  | subbRI (rn : Gpr) (ri : BitVec 2)
  /-- SUBB Rbn, [Rwi+] (R226) -/
  | subbRIP (rn : Gpr) (ri : BitVec 2)
  /-- SUBB Rbn, #data3 (R226) -/
  | subbR3 (rn : Gpr) (d : BitVec 3)
  /-- SUBB reg, #data8 (R226) -/
  | subbRegImm (reg : Byte) (d : Byte)
  /-- SUBB reg, mem (R226) -/
  | subbRegMem (reg : Byte) (mem : Word)
  /-- SUBB mem, reg (R226) -/
  | subbMemReg (mem : Word) (reg : Byte)
  /-- SUBC Rwn, Rwm (R227) -/
  | subcRR (rn : Gpr) (rm : Gpr)
  /-- SUBC Rwn, [Rwi] (R227) -/
  | subcRI (rn : Gpr) (ri : BitVec 2)
  /-- SUBC Rwn, [Rwi+] (R227) -/
  | subcRIP (rn : Gpr) (ri : BitVec 2)
  /-- SUBC Rwn, #data3 (R227) -/
  | subcR3 (rn : Gpr) (d : BitVec 3)
  /-- SUBC reg, #data16 (R227) -/
  | subcRegImm (reg : Byte) (d : Word)
  /-- SUBC reg, mem (R227) -/
  | subcRegMem (reg : Byte) (mem : Word)
  /-- SUBC mem, reg (R227) -/
  | subcMemReg (mem : Word) (reg : Byte)
  /-- SUBCB Rbn, Rbm (R228) -/
  | subcbRR (rn : Gpr) (rm : Gpr)
  /-- SUBCB Rbn, [Rwi] (R228) -/
  | subcbRI (rn : Gpr) (ri : BitVec 2)
  /-- SUBCB Rbn, [Rwi+] (R228) -/
  | subcbRIP (rn : Gpr) (ri : BitVec 2)
  /-- SUBCB Rbn, #data3 (R228) -/
  | subcbR3 (rn : Gpr) (d : BitVec 3)
  /-- SUBCB reg, #data8 (R228) -/
  | subcbRegImm (reg : Byte) (d : Byte)
  /-- SUBCB reg, mem (R228) -/
  | subcbRegMem (reg : Byte) (mem : Word)
  /-- SUBCB mem, reg (R228) -/
  | subcbMemReg (mem : Word) (reg : Byte)
  /-- CMP Rwn, Rwm (R281) -/
  | cmpRR (rn : Gpr) (rm : Gpr)
  /-- CMP Rwn, [Rwi] (R281) -/
  | cmpRI (rn : Gpr) (ri : BitVec 2)
  /-- CMP Rwn, [Rwi+] (R281) -/
  | cmpRIP (rn : Gpr) (ri : BitVec 2)
  /-- CMP Rwn, #data3 (R281) -/
  | cmpR3 (rn : Gpr) (d : BitVec 3)
  /-- CMP reg, #data16 (R281) -/
  | cmpRegImm (reg : Byte) (d : Word)
  /-- CMP reg, mem (R281) -/
  | cmpRegMem (reg : Byte) (mem : Word)
  /-- CMPB Rbn, Rbm (R282) -/
  | cmpbRR (rn : Gpr) (rm : Gpr)
  /-- CMPB Rbn, [Rwi] (R282) -/
  | cmpbRI (rn : Gpr) (ri : BitVec 2)
  /-- CMPB Rbn, [Rwi+] (R282) -/
  | cmpbRIP (rn : Gpr) (ri : BitVec 2)
  /-- CMPB Rbn, #data3 (R282) -/
  | cmpbR3 (rn : Gpr) (d : BitVec 3)
  /-- CMPB reg, #data8 (R282) -/
  | cmpbRegImm (reg : Byte) (d : Byte)
  /-- CMPB reg, mem (R282) -/
  | cmpbRegMem (reg : Byte) (mem : Word)
  /-- XOR Rwn, Rwm (R265) -/
  | xorRR (rn : Gpr) (rm : Gpr)
  /-- XOR Rwn, [Rwi] (R265) -/
  | xorRI (rn : Gpr) (ri : BitVec 2)
  /-- XOR Rwn, [Rwi+] (R265) -/
  | xorRIP (rn : Gpr) (ri : BitVec 2)
  /-- XOR Rwn, #data3 (R265) -/
  | xorR3 (rn : Gpr) (d : BitVec 3)
  /-- XOR reg, #data16 (R265) -/
  | xorRegImm (reg : Byte) (d : Word)
  /-- XOR reg, mem (R265) -/
  | xorRegMem (reg : Byte) (mem : Word)
  /-- XOR mem, reg (R265) -/
  | xorMemReg (mem : Word) (reg : Byte)
  /-- XORB Rbn, Rbm (R266) -/
  | xorbRR (rn : Gpr) (rm : Gpr)
  /-- XORB Rbn, [Rwi] (R266) -/
  | xorbRI (rn : Gpr) (ri : BitVec 2)
  /-- XORB Rbn, [Rwi+] (R266) -/
  | xorbRIP (rn : Gpr) (ri : BitVec 2)
  /-- XORB Rbn, #data3 (R266) -/
  | xorbR3 (rn : Gpr) (d : BitVec 3)
  /-- XORB reg, #data8 (R266) -/
  | xorbRegImm (reg : Byte) (d : Byte)
  /-- XORB reg, mem (R266) -/
  | xorbRegMem (reg : Byte) (mem : Word)
  /-- XORB mem, reg (R266) -/
  | xorbMemReg (mem : Word) (reg : Byte)
  /-- AND Rwn, Rwm (R261) -/
  | andRR (rn : Gpr) (rm : Gpr)
  /-- AND Rwn, [Rwi] (R261) -/
  | andRI (rn : Gpr) (ri : BitVec 2)
  /-- AND Rwn, [Rwi+] (R261) -/
  | andRIP (rn : Gpr) (ri : BitVec 2)
  /-- AND Rwn, #data3 (R261) -/
  | andR3 (rn : Gpr) (d : BitVec 3)
  /-- AND reg, #data16 (R261) -/
  | andRegImm (reg : Byte) (d : Word)
  /-- AND reg, mem (R261) -/
  | andRegMem (reg : Byte) (mem : Word)
  /-- AND mem, reg (R261) -/
  | andMemReg (mem : Word) (reg : Byte)
  /-- ANDB Rbn, Rbm (R262) -/
  | andbRR (rn : Gpr) (rm : Gpr)
  /-- ANDB Rbn, [Rwi] (R262) -/
  | andbRI (rn : Gpr) (ri : BitVec 2)
  /-- ANDB Rbn, [Rwi+] (R262) -/
  | andbRIP (rn : Gpr) (ri : BitVec 2)
  /-- ANDB Rbn, #data3 (R262) -/
  | andbR3 (rn : Gpr) (d : BitVec 3)
  /-- ANDB reg, #data8 (R262) -/
  | andbRegImm (reg : Byte) (d : Byte)
  /-- ANDB reg, mem (R262) -/
  | andbRegMem (reg : Byte) (mem : Word)
  /-- ANDB mem, reg (R262) -/
  | andbMemReg (mem : Word) (reg : Byte)
  /-- OR Rwn, Rwm (R263) -/
  | orRR (rn : Gpr) (rm : Gpr)
  /-- OR Rwn, [Rwi] (R263) -/
  | orRI (rn : Gpr) (ri : BitVec 2)
  /-- OR Rwn, [Rwi+] (R263) -/
  | orRIP (rn : Gpr) (ri : BitVec 2)
  /-- OR Rwn, #data3 (R263) -/
  | orR3 (rn : Gpr) (d : BitVec 3)
  /-- OR reg, #data16 (R263) -/
  | orRegImm (reg : Byte) (d : Word)
  /-- OR reg, mem (R263) -/
  | orRegMem (reg : Byte) (mem : Word)
  /-- OR mem, reg (R263) -/
  | orMemReg (mem : Word) (reg : Byte)
  /-- ORB Rbn, Rbm (R264) -/
  | orbRR (rn : Gpr) (rm : Gpr)
  /-- ORB Rbn, [Rwi] (R264) -/
  | orbRI (rn : Gpr) (ri : BitVec 2)
  /-- ORB Rbn, [Rwi+] (R264) -/
  | orbRIP (rn : Gpr) (ri : BitVec 2)
  /-- ORB Rbn, #data3 (R264) -/
  | orbR3 (rn : Gpr) (d : BitVec 3)
  /-- ORB reg, #data8 (R264) -/
  | orbRegImm (reg : Byte) (d : Byte)
  /-- ORB reg, mem (R264) -/
  | orbRegMem (reg : Byte) (mem : Word)
  /-- ORB mem, reg (R264) -/
  | orbMemReg (mem : Word) (reg : Byte)
  /-- MUL Rwn, Rwm (R229) -/
  | mul (rn : Gpr) (rm : Gpr)
  /-- MULU Rwn, Rwm (R230) -/
  | mulu (rn : Gpr) (rm : Gpr)
  /-- DIV Rwn (R231) -/
  | div (rn : Gpr)
  /-- DIVU Rwn (R232) -/
  | divu (rn : Gpr)
  /-- DIVL Rwn (R233) -/
  | divl (rn : Gpr)
  /-- DIVLU Rwn (R234) -/
  | divlu (rn : Gpr)
  /-- CPL Rwn (R235) -/
  | cpl (rn : Gpr)
  /-- CPLB Rbn (R236) -/
  | cplb (rn : Gpr)
  /-- NEG Rwn (R237) -/
  | neg (rn : Gpr)
  /-- NEGB Rbn (R238) -/
  | negb (rn : Gpr)
  /-- CMPI1 Rwn, #data4 (R283) -/
  | cmpi1R4 (rn : Gpr) (d : BitVec 4)
  /-- CMPI1 Rwn, #data16 (R283) -/
  | cmpi1R16 (rn : Gpr) (d : Word)
  /-- CMPI1 Rwn, mem (R283) -/
  | cmpi1RMem (rn : Gpr) (mem : Word)
  /-- CMPI2 Rwn, #data4 (R284) -/
  | cmpi2R4 (rn : Gpr) (d : BitVec 4)
  /-- CMPI2 Rwn, #data16 (R284) -/
  | cmpi2R16 (rn : Gpr) (d : Word)
  /-- CMPI2 Rwn, mem (R284) -/
  | cmpi2RMem (rn : Gpr) (mem : Word)
  /-- CMPD1 Rwn, #data4 (R285) -/
  | cmpd1R4 (rn : Gpr) (d : BitVec 4)
  /-- CMPD1 Rwn, #data16 (R285) -/
  | cmpd1R16 (rn : Gpr) (d : Word)
  /-- CMPD1 Rwn, mem (R285) -/
  | cmpd1RMem (rn : Gpr) (mem : Word)
  /-- CMPD2 Rwn, #data4 (R286) -/
  | cmpd2R4 (rn : Gpr) (d : BitVec 4)
  /-- CMPD2 Rwn, #data16 (R286) -/
  | cmpd2R16 (rn : Gpr) (d : Word)
  /-- CMPD2 Rwn, mem (R286) -/
  | cmpd2RMem (rn : Gpr) (mem : Word)
  /-- BFLDL bitoffQ, #mask8, #data8 (R302) -/
  | bfldl (bitoff : Byte) (mask : Byte) (d : Byte)
  /-- BFLDH bitoffQ, #mask8, #data8 (R301) -/
  | bfldh (bitoff : Byte) (mask : Byte) (d : Byte)
  /-- BCMP bitaddrZ.z, bitaddrQ.q (R310) -/
  | bcmp (bitoffZ : Byte) (z : BitVec 4) (bitoffQ : Byte) (q : BitVec 4)
  /-- BMOVN bitaddrZ.z, bitaddrQ.q (R306) -/
  | bmovn (bitoffZ : Byte) (z : BitVec 4) (bitoffQ : Byte) (q : BitVec 4)
  /-- BMOV bitaddrZ.z, bitaddrQ.q (R305) -/
  | bmov (bitoffZ : Byte) (z : BitVec 4) (bitoffQ : Byte) (q : BitVec 4)
  /-- BOR bitaddrZ.z, bitaddrQ.q (R308) -/
  | bor (bitoffZ : Byte) (z : BitVec 4) (bitoffQ : Byte) (q : BitVec 4)
  /-- BAND bitaddrZ.z, bitaddrQ.q (R307) -/
  | band (bitoffZ : Byte) (z : BitVec 4) (bitoffQ : Byte) (q : BitVec 4)
  /-- BXOR bitaddrZ.z, bitaddrQ.q (R309) -/
  | bxor (bitoffZ : Byte) (z : BitVec 4) (bitoffQ : Byte) (q : BitVec 4)
  /-- BCLR bitaddrQ.q (R304) -/
  | bclr (bitoff : Byte) (q : BitVec 4)
  /-- BSET bitaddrQ.q (R303) -/
  | bset (bitoff : Byte) (q : BitVec 4)
  /-- ROL Rwn, Rwm (R334) -/
  | rolRR (rn : Gpr) (rm : Gpr)
  /-- ROL Rwn, #data4 (R334) -/
  | rolR4 (rn : Gpr) (d : BitVec 4)
  /-- ROR Rwn, Rwm (R333) -/
  | rorRR (rn : Gpr) (rm : Gpr)
  /-- ROR Rwn, #data4 (R333) -/
  | rorR4 (rn : Gpr) (d : BitVec 4)
  /-- SHL Rwn, Rwm (R332) -/
  | shlRR (rn : Gpr) (rm : Gpr)
  /-- SHL Rwn, #data4 (R332) -/
  | shlR4 (rn : Gpr) (d : BitVec 4)
  /-- SHR Rwn, Rwm (R331) -/
  | shrRR (rn : Gpr) (rm : Gpr)
  /-- SHR Rwn, #data4 (R331) -/
  | shrR4 (rn : Gpr) (d : BitVec 4)
  /-- ASHR Rwn, Rwm (R335) -/
  | ashrRR (rn : Gpr) (rm : Gpr)
  /-- ASHR Rwn, #data4 (R335) -/
  | ashrR4 (rn : Gpr) (d : BitVec 4)
  /-- PRIOR Rwn, Rwm (R336) -/
  | prior (rn : Gpr) (rm : Gpr)
  /-- MOV Rwn, Rwm (R351) -/
  | movRR (rn : Gpr) (rm : Gpr)
  /-- MOV Rwn, #data4 (R351) -/
  | movR4 (rn : Gpr) (d : BitVec 4)
  /-- MOV reg, #data16 (R351) -/
  | movRegImm (reg : Byte) (d : Word)
  /-- MOV Rwn, [Rwm] (R351) -/
  | movRI (rn : Gpr) (rm : Gpr)
  /-- MOV Rwn, [Rwm+] (R351) -/
  | movRIP (rn : Gpr) (rm : Gpr)
  /-- MOV [Rwm], Rwn (R351) -/
  | movIR (rm : Gpr) (rn : Gpr)
  /-- MOV [-Rwm], Rwn (R351) -/
  | movDR (rm : Gpr) (rn : Gpr)
  /-- MOV [Rwn], [Rwm] (R351) -/
  | movII (rn : Gpr) (rm : Gpr)
  /-- MOV [Rwn+], [Rwm] (R351) -/
  | movIPI (rn : Gpr) (rm : Gpr)
  /-- MOV [Rwn], [Rwm+] (R351) -/
  | movIIP (rn : Gpr) (rm : Gpr)
  /-- MOV Rwn, [Rwm+#data16] (R351) -/
  | movRX (rn : Gpr) (rm : Gpr) (d : Word)
  /-- MOV [Rwm+#data16], Rwn (R351) -/
  | movXR (rm : Gpr) (d : Word) (rn : Gpr)
  /-- MOV [Rwn], mem (R351) -/
  | movIMem (rn : Gpr) (mem : Word)
  /-- MOV mem, [Rwn] (R351) -/
  | movMemI (mem : Word) (rn : Gpr)
  /-- MOV reg, mem (R351) -/
  | movRegMem (reg : Byte) (mem : Word)
  /-- MOV mem, reg (R351) -/
  | movMemReg (mem : Word) (reg : Byte)
  /-- MOVB Rbn, Rbm (R352) -/
  | movbRR (rn : Gpr) (rm : Gpr)
  /-- MOVB Rbn, #data4 (R352) -/
  | movbR4 (rn : Gpr) (d : BitVec 4)
  /-- MOVB reg, #data8 (R352) -/
  | movbRegImm (reg : Byte) (d : Byte)
  /-- MOVB Rbn, [Rwm] (R352) -/
  | movbRI (rn : Gpr) (rm : Gpr)
  /-- MOVB Rbn, [Rwm+] (R352) -/
  | movbRIP (rn : Gpr) (rm : Gpr)
  /-- MOVB [Rwm], Rbn (R352) -/
  | movbIR (rm : Gpr) (rn : Gpr)
  /-- MOVB [-Rwm], Rbn (R352) -/
  | movbDR (rm : Gpr) (rn : Gpr)
  /-- MOVB [Rwn], [Rwm] (R352) -/
  | movbII (rn : Gpr) (rm : Gpr)
  /-- MOVB [Rwn+], [Rwm] (R352) -/
  | movbIPI (rn : Gpr) (rm : Gpr)
  /-- MOVB [Rwn], [Rwm+] (R352) -/
  | movbIIP (rn : Gpr) (rm : Gpr)
  /-- MOVB Rbn, [Rwm+#data16] (R352) -/
  | movbRX (rn : Gpr) (rm : Gpr) (d : Word)
  /-- MOVB [Rwm+#data16], Rbn (R352) -/
  | movbXR (rm : Gpr) (d : Word) (rn : Gpr)
  /-- MOVB [Rwn], mem (R352) -/
  | movbIMem (rn : Gpr) (mem : Word)
  /-- MOVB mem, [Rwn] (R352) -/
  | movbMemI (mem : Word) (rn : Gpr)
  /-- MOVB reg, mem (R352) -/
  | movbRegMem (reg : Byte) (mem : Word)
  /-- MOVB mem, reg (R352) -/
  | movbMemReg (mem : Word) (reg : Byte)
  /-- MOVBS Rwn, Rbm (R353) -/
  | movbsRR (rn : Gpr) (rm : Gpr)
  /-- MOVBS reg, mem (R353) -/
  | movbsRegMem (reg : Byte) (mem : Word)
  /-- MOVBS mem, reg (R353) -/
  | movbsMemReg (mem : Word) (reg : Byte)
  /-- MOVBZ Rwn, Rbm (R354) -/
  | movbzRR (rn : Gpr) (rm : Gpr)
  /-- MOVBZ reg, mem (R354) -/
  | movbzRegMem (reg : Byte) (mem : Word)
  /-- MOVBZ mem, reg (R354) -/
  | movbzMemReg (mem : Word) (reg : Byte)
  /-- PUSH reg (R392) -/
  | push (reg : Byte)
  /-- POP reg (R393) -/
  | pop (reg : Byte)
  /-- SCXT reg, #data16 (R394) -/
  | scxtRegImm (reg : Byte) (d : Word)
  /-- SCXT reg, mem (R394) -/
  | scxtRegMem (reg : Byte) (mem : Word)
  /-- JMPA cc, caddr (R401) -/
  | jmpa (cc : Cc) (caddr : Word)
  /-- JMPI cc, [Rwn] (R402) -/
  | jmpi (cc : Cc) (rn : Gpr)
  /-- JMPR cc, rel (R403) -/
  | jmpr (cc : Cc) (rel : Byte)
  /-- JMPS seg, caddr (R404) -/
  | jmps (seg : Byte) (caddr : Word)
  /-- JB bitaddrQ.q, rel (R406) -/
  | jb (bitoff : Byte) (q : BitVec 4) (rel : Byte)
  /-- JNB bitaddrQ.q, rel (R407) -/
  | jnb (bitoff : Byte) (q : BitVec 4) (rel : Byte)
  /-- JBC bitaddrQ.q, rel (R408) -/
  | jbc (bitoff : Byte) (q : BitVec 4) (rel : Byte)
  /-- JNBS bitaddrQ.q, rel (R409) -/
  | jnbs (bitoff : Byte) (q : BitVec 4) (rel : Byte)
  /-- CALLA cc, caddr (R421) -/
  | calla (cc : Cc) (caddr : Word)
  /-- CALLI cc, [Rwn] (R422) -/
  | calli (cc : Cc) (rn : Gpr)
  /-- CALLR rel (R423) -/
  | callr (rel : Byte)
  /-- CALLS seg, caddr (R424) -/
  | calls (seg : Byte) (caddr : Word)
  /-- PCALL reg, caddr (R425) -/
  | pcall (reg : Byte) (caddr : Word)
  /-- TRAP #trap7 (R426) -/
  | trap (trap7 : BitVec 7)
  /-- RET  (R431) -/
  | ret
  /-- RETS  (R432) -/
  | rets
  /-- RETP reg (R433) -/
  | retp (reg : Byte)
  /-- RETI  (R436) -/
  | reti
  /-- SRST  (R451) -/
  | srst
  /-- IDLE  (R452) -/
  | idle
  /-- PWRDN  (R453) -/
  | pwrdn
  /-- SRVWDT  (R454) -/
  | srvwdt
  /-- DISWDT  (R455) -/
  | diswdt
  /-- EINIT  (R456) -/
  | einit
  /-- NOP  (R457) -/
  | nop
  /-- ATOMIC #irang2 (R461) -/
  | atomic (irang : Nat)
  /-- EXTR #irang2 (R462) -/
  | extr (irang : Nat)
  /-- EXTP Rwm, #irang2 (R463) -/
  | extpR (rm : Gpr) (irang : Nat)
  /-- EXTP #pag10, #irang2 (R463) -/
  | extpImm (pag : BitVec 10) (irang : Nat)
  /-- EXTPR Rwm, #irang2 (R464) -/
  | extprR (rm : Gpr) (irang : Nat)
  /-- EXTPR #pag10, #irang2 (R464) -/
  | extprImm (pag : BitVec 10) (irang : Nat)
  /-- EXTS Rwm, #irang2 (R465) -/
  | extsR (rm : Gpr) (irang : Nat)
  /-- EXTS #seg8, #irang2 (R465) -/
  | extsImm (seg : Byte) (irang : Nat)
  /-- EXTSR Rwm, #irang2 (R466) -/
  | extsrR (rm : Gpr) (irang : Nat)
  /-- EXTSR #seg8, #irang2 (R466) -/
  | extsrImm (seg : Byte) (irang : Nat)
deriving DecidableEq, Repr

end Sys2Proof
end

