-- ==== Sys2Proof/Machine/Flags.lean ====
section
/-! DEFINITION. The condition flags: every flag computation of the instruction set (10_state.md R36 to R40,
40_arithmetic.md R240, 41_logical.md R260, 43_bit.md R300, 44_shift_prior.md R330), and the condition codes. -/
namespace Sys2Proof.Machine

/-- The five condition flags. -/
structure Flags where
  e : Bool
  z : Bool
  v : Bool
  c : Bool
  n : Bool
deriving DecidableEq, Repr

/-- The flags in PSW bits 4 to 0. -/
def Flags.word (f : Flags) : Word :=
  wset (wset (wset (wset (wset 0 4 f.e) 3 f.z) 2 f.v) 1 f.c) 0 f.n

/-- The flags of a PSW. -/
def flagsOf (psw : Word) : Flags :=
  { e := wbit psw 4, z := wbit psw 3, v := wbit psw 2, c := wbit psw 1, n := wbit psw 0 }

/-- PSW with new flags. -/
def withFlags (psw : Word) (f : Flags) : Word := (psw &&& 0xFFE0) ||| f.word

/-- The machine with new flags. -/
def State.withFlags (s : State) (f : Flags) : State :=
  { s with core := { s.core with psw := Sys2Proof.Machine.withFlags s.core.psw f } }

/-- The flags an instruction generates. They are written before its destination, so that an explicit write of PSW
stands (R34). -/
def setFlags (f : Flags) : Act Unit := change (fun s => s.withFlags f)

/-- The E flag: the source operand is the lowest signed number (R240 `EF`). -/
def endOfTable {w : Nat} (b : BitVec w) : Bool := b == BitVec.intMin w

/-- An operation of the ALU: from PSW, op1 and op2 to the result and the flags. -/
abbrev Alu (w : Nat) := Word → BitVec w → BitVec w → BitVec w × Flags

/-- `ADDF` (R240); `zIn` is what the Z flag is ANDed with. -/
def addWith {w : Nat} (a b : BitVec w) (cin zIn : Bool) : BitVec w × Flags :=
  let sum := a.toNat + b.toNat + cin.toNat
  let r := BitVec.ofNat w sum
  (r, { e := endOfTable b
        z := r == 0 && zIn
        v := a.msb == b.msb && r.msb != a.msb
        c := decide (2 ^ w ≤ sum)
        n := r.msb })

/-- `SUBF` (R240); C is the borrow. -/
def subWith {w : Nat} (a b : BitVec w) (cin zIn : Bool) : BitVec w × Flags :=
  let r := a - b - BitVec.ofNat w cin.toNat
  (r, { e := endOfTable b
        z := r == 0 && zIn
        v := a.msb != b.msb && r.msb != a.msb
        c := decide (a.toNat < b.toNat + cin.toNat)
        n := r.msb })

/-- ADD (R221, R222). -/
def aluAdd {w : Nat} : Alu w := fun _ a b => addWith a b false true

/-- ADDC (R223, R224): Z only stays set. -/
def aluAddc {w : Nat} : Alu w := fun psw a b => addWith a b (wbit psw 1) (wbit psw 3)

/-- SUB, and the comparison of CMP (R225, R226, R280). -/
def aluSub {w : Nat} : Alu w := fun _ a b => subWith a b false true

/-- SUBC (R227, R228). -/
def aluSubc {w : Nat} : Alu w := fun psw a b => subWith a b (wbit psw 1) (wbit psw 3)

/-- Flags of a logical result `r` with source operand `b` (R260). -/
def logicFlags {w : Nat} (b r : BitVec w) : Flags :=
  { e := endOfTable b, z := r == 0, v := false, c := false, n := r.msb }

/-- AND (R261, R262). -/
def aluAnd {w : Nat} : Alu w := fun _ a b => (a &&& b, logicFlags b (a &&& b))

/-- OR (R263, R264). -/
def aluOr {w : Nat} : Alu w := fun _ a b => (a ||| b, logicFlags b (a ||| b))

/-- XOR (R265, R266). -/
def aluXor {w : Nat} : Alu w := fun _ a b => (a ^^^ b, logicFlags b (a ^^^ b))

/-- CPL: from the operand to the result and the flags (R235, R236). -/
def cplOf {w : Nat} (a : BitVec w) : BitVec w × Flags := (~~~a, logicFlags a (~~~a))

/-- NEG: from the operand to the result and the flags (R237, R238). -/
def negOf {w : Nat} (a : BitVec w) : BitVec w × Flags := subWith 0 a false true

/-- Flags of MOV, PUSH, POP, PCALL, RETP: E, Z, N from the moved value, V and C stay (45_data_movement.md R350). -/
def moveFlags {w : Nat} (psw : Word) (v : BitVec w) : Flags :=
  { flagsOf psw with e := endOfTable v, z := v == 0, n := v.msb }

/-- Flags of MOVBS (R353). -/
def moveSignFlags (psw : Word) (b : Byte) : Flags := { flagsOf psw with e := false, z := b == 0, n := b.msb }

/-- Flags of MOVBZ (R354). -/
def moveZeroFlags (psw : Word) (b : Byte) : Flags := { flagsOf psw with e := false, z := b == 0, n := false }

/-- Flags of an instruction with one bit operand `b` (43_bit.md R300). -/
def bitFlags (b : Bool) : Flags := { e := false, z := !b, v := false, c := false, n := b }

/-- Flags of an instruction with the two bit operands `d` and `s` (R300). -/
def bitPairFlags (d s : Bool) : Flags := { e := false, z := !(d || s), v := d || s, c := d && s, n := d != s }

/-- Flags of JBC and JNBS on the tested bit (47_jump.md R408, R409: `- B - - B`): Z and N from the bit, E, V and C as
they were. DEDUCED (log 47): the rules of the two instructions prevail over the remark in the table of 43_bit.md R300. -/
def bitTestFlags (psw : Word) (b : Bool) : Flags := { flagsOf psw with z := !b, n := b }

/-- Flags of BFLDH and BFLDL, from the whole new word (R301, R302). -/
def fieldFlags (w : Word) : Flags := { e := false, z := w == 0, v := false, c := false, n := w.msb }

/-- Flags of a right shift or rotate of `a` by `k` with result `r` (44_shift_prior.md R330): C is the bit shifted out
last, V tells whether an earlier one was 1. -/
def rightFlags (a : Word) (k : Nat) (r : Word) : Flags :=
  { e := false
    z := r == 0
    v := decide (2 ≤ k) && decide (a.toNat % 2 ^ (k - 1) ≠ 0)
    c := decide (1 ≤ k) && wbit a (k - 1)
    n := r.msb }

/-- Flags of a left shift or rotate of `a` by `k` with result `r` (R330, R332, R334). -/
def leftFlags (a : Word) (k : Nat) (r : Word) : Flags :=
  { e := false, z := r == 0, v := false, c := decide (1 ≤ k) && wbit a (16 - k), n := r.msb }

/-- A shift: from the operand and the count to the result and the flags. -/
abbrev Shift := Word → Nat → Word × Flags

/-- SHR (R331). -/
def shiftShr : Shift := fun a k => (a >>> k, rightFlags a k (a >>> k))

/-- SHL (R332). -/
def shiftShl : Shift := fun a k => (a <<< k, leftFlags a k (a <<< k))

/-- ROR (R333). -/
def shiftRor : Shift := fun a k => (a.rotateRight k, rightFlags a k (a.rotateRight k))

/-- ROL (R334). -/
def shiftRol : Shift := fun a k => (a.rotateLeft k, leftFlags a k (a.rotateLeft k))

/-- ASHR (R335). -/
def shiftAshr : Shift := fun a k => (a.sshiftRight k, rightFlags a k (a.sshiftRight k))

/-- The number of zero bits above the highest 1 among the low `n` bits, `n` if there is none. -/
def leadingZeros (b : Word) : Nat → Nat
  | 0 => 0
  | n + 1 => if wbit b n then 0 else leadingZeros b n + 1

/-- PRIOR (R336). -/
def priorOf (b : Word) : Word × Flags :=
  (if b = 0 then 0 else BitVec.ofNat 16 (leadingZeros b 16),
    { e := false, z := b == 0, v := false, c := false, n := false })

/-- Flags of a multiplication with the 32-bit result `p` (40_arithmetic.md R229, R230). -/
def mulFlags (p : BitVec 32) (overflow : Bool) : Flags :=
  { e := false, z := p == 0, v := overflow, c := false, n := p.msb }

/-- MUL: the signed product and its flags (R229). -/
def mulSigned (a b : Word) : BitVec 32 × Flags :=
  let p := a.toInt * b.toInt
  let r := BitVec.ofInt 32 p
  (r, mulFlags r (decide (p < -0x8000) || decide (0x7FFF < p)))

/-- MULU: the unsigned product and its flags (R230). -/
def mulUnsigned (a b : Word) : BitVec 32 × Flags :=
  let p := a.toNat * b.toNat
  let r := BitVec.ofNat 32 p
  (r, mulFlags r (decide (0xFFFF < p)))

/-- Flags of a division with quotient `q` (R231 to R234). -/
def divFlags (q : Word) : Flags :=
  { e := false, z := q == 0, v := false, c := false, n := q.msb }

/-- A signed quotient and remainder, truncated toward zero; none where the quotient does not fit in a word (R231,
R233). -/
def divSigned (n d : Int) : Option (Word × Word) :=
  if d = 0 then none
  else
    let q := n.tdiv d
    if q < -0x8000 ∨ 0x7FFF < q then none else some (BitVec.ofInt 16 q, BitVec.ofInt 16 (n - q * d))

/-- An unsigned quotient and remainder; none where the quotient does not fit in a word (R232, R234). -/
def divUnsigned (n d : Nat) : Option (Word × Word) :=
  if d = 0 then none
  else if 0xFFFF < n / d then none
  else some (BitVec.ofNat 16 (n / d), BitVec.ofNat 16 (n % d))

/-- A division: from MDH, MDL and the divisor to the quotient and the remainder. -/
abbrev Division := Word → Word → Word → Option (Word × Word)

/-- DIV (R231). -/
def divDiv : Division := fun _ mdl d => divSigned mdl.toInt d.toInt

/-- DIVU (R232). -/
def divDivu : Division := fun _ mdl d => divUnsigned mdl.toNat d.toNat

/-- DIVL (R233). -/
def divDivl : Division := fun mdh mdl d => divSigned (mdh ++ mdl).toInt d.toInt

/-- DIVLU (R234). -/
def divDivlu : Division := fun mdh mdl d => divUnsigned (mdh ++ mdl).toNat d.toNat

/-- Whether a condition holds (30_encoding.md R175). -/
def condition (cc : Cc) (f : Flags) : Bool :=
  match cc with
  | .uc => true
  | .net => !f.z && !f.e
  | .z => f.z
  | .nz => !f.z
  | .v => f.v
  | .nv => !f.v
  | .n => f.n
  | .nn => !f.n
  | .c => f.c
  | .nc => !f.c
  | .sgt => !f.z && f.n == f.v
  | .sle => f.z || f.n != f.v
  | .slt => f.n != f.v
  | .sge => f.n == f.v
  | .ugt => !f.z && !f.c
  | .ule => f.z || f.c

end Sys2Proof.Machine
end

