-- ==== Sys2Proof/Machine/Operands.lean ====
section
/-! DEFINITION. The operand forms (30_encoding.md R166 to R170, 40_arithmetic.md R220, 45_data_movement.md R350): how
each form reads its operands, in which order, and where it writes its result. The forms are written once for words
and bytes. -/
namespace Sys2Proof.Machine

/-- How operands of one width are accessed. -/
structure Width (w : Nat) where
  readGpr : Gpr → Act (BitVec w)
  writeGpr : Gpr → BitVec w → Act Unit
  readReg : Byte → Act (BitVec w)
  writeReg : Byte → BitVec w → Act Unit
  readMem : Word → Act (BitVec w)
  writeMem : Word → BitVec w → Act Unit
  /-- the step of an auto-modified pointer (R168) -/
  step : Word
  /-- the data register lies in the word register -/
  within : Gpr → Gpr → Bool
  /-- a free value (U18) -/
  open_ : Nat → Act (BitVec w)

/-- Word operands. -/
def wordW : Width 16 where
  readGpr := Sys2Proof.Machine.readGpr
  writeGpr := Sys2Proof.Machine.writeGpr
  readReg := Sys2Proof.Machine.readReg
  writeReg := Sys2Proof.Machine.writeReg
  readMem := Sys2Proof.Machine.readMem
  writeMem := Sys2Proof.Machine.writeMem
  step := 2
  within := fun n p => n == p
  open_ := openWord .pointerAlias

/-- Byte operands. DESIGN CHOICE (log 6): a byte GPR is the same GPR as the pointer Rp (R220, U18) if it is either half of
it, RLp or RHp. -/
def byteW : Width 8 where
  readGpr := readGprB
  writeGpr := writeGprB
  readReg := readRegB
  writeReg := writeRegB
  readMem := readMemB
  writeMem := writeMemB
  step := 1
  within := fun n p => n >>> 1 == p
  open_ := fun i => do
    let v ← openWord .pointerAlias i
    pure (loByte v)

/-- The pointer register `Rwi` of the arithmetic, logical and compare instructions, R0 to R3. -/
def pointerOf (ri : BitVec 2) : Gpr := ri.setWidth 4

/-- Read the operand `[Rwp]`. -/
def readIndirect {w : Nat} (W : Width w) (p : Gpr) : Act (BitVec w) := do
  let a ← readGpr p
  W.readMem a

/-- Add `d` to a pointer register. -/
def stepGpr (p : Gpr) (d : Word) : Act Unit := do
  let a ← readGpr p
  writeGpr p (a + d)

/-- Read the operand `[Rwp+]`: the pointer is incremented after the read. -/
def readPostInc {w : Nat} (W : Width w) (p : Gpr) : Act (BitVec w) := do
  let v ← readIndirect W p
  stepGpr p W.step
  pure v

/-- The contents of a pointer register that is also the data register of the instruction are free (U18). -/
def openPointer (p : Gpr) : Act Unit := do
  let v ← openWord .pointerAlias 1
  writeGpr p v

/-! ## The two-operand form of the ALU instructions (R220) -/

/-- Read op2, then op1; compute; set the flags; write the result to op1. -/
def aluStep {w : Nat} (f : Alu w) (op2 op1 : Act (BitVec w)) (write : BitVec w → Act Unit) : Act Unit := do
  let b ← op2
  let a ← op1
  let psw ← look (fun s => s.core.psw)
  let r := f psw a b
  setFlags r.2
  write r.1

/-- The check against a stack limit after ADD or SUB wrote SP (R241). -/
inductive SpCheck
  | none
  /-- ADD, ADDC: STKUF if SP > STKUN -/
  | underflow
  /-- SUB, SUBC: STKOF if SP < STKOV -/
  | overflow
deriving DecidableEq, Repr

/-- The stack trap of an ADD or SUB on SP is entered after one more instruction (60_exceptions.md R555, R556). -/
def State.raiseDeferred (s : State) (mask : Word) : State :=
  let t := s.raise mask
  if t.sys.treq = s.sys.treq then t else { t with sys := { t.sys with deferred := 2 } }

/-- SP has been written by ADD or SUB: the limit is checked. -/
def State.spChecked (s : State) (c : SpCheck) : State :=
  match c with
  | .none => s
  | .underflow => if s.core.stkun < s.core.sp then s.raiseDeferred tfrStkuf else s
  | .overflow => if s.core.sp < s.core.stkov then s.raiseDeferred tfrStkof else s

/-- The `reg` operand is SP. -/
def State.regIsSp (s : State) (reg : Byte) : Bool := !isGprCode reg && Sfr.ofReg s.sys.ext.esfr reg == Sfr.sp

/-- The data address is that of SP, 00'FE12h (R241). -/
def State.memIsSp (s : State) (mem : Word) : Bool := s.dataAddr mem == 0x00FE12#24

/-- The register that a write of `w` bits at a data address reaches; a word at an odd address reaches none. -/
def State.memSfr (s : State) (w : Nat) (mem : Word) : Option Sfr :=
  match areaOf s.env.device s.effMap (s.dataAddr mem) with
  | .sfr r => if w = 16 ∧ (s.dataAddr mem).toNat % 2 = 1 then none else some r
  | _ => none

/-- An ALU instruction has written its `reg` destination: SP is checked, and it is noted as a read-modify-write of the
register (20_memory.md R134, R135, 41_logical.md R260). -/
def State.aluReg (s : State) (c : SpCheck) (reg : Byte) : State :=
  let t := if s.regIsSp reg then s.spChecked c else s
  if isGprCode reg then t else
    let r := Sfr.ofReg s.sys.ext.esfr reg
    t.noteRmw r r.unprotected

/-- An ALU instruction of `w` bits has written its `mem` destination, addressed in the state `u`: likewise. -/
def State.aluMem (s u : State) (c : SpCheck) (w : Nat) (mem : Word) : State :=
  let t := if u.memIsSp mem then s.spChecked c else s
  match u.memSfr w mem with
  | some r => t.noteRmw r r.unprotected
  | none => t

/-- Write the `reg` destination of an ALU instruction. -/
def aluWriteReg {w : Nat} (W : Width w) (c : SpCheck) (reg : Byte) (v : BitVec w) : Act Unit := do
  W.writeReg reg v
  change (fun s => s.aluReg c reg)

/-- Write the `mem` destination of an ALU instruction. -/
def aluWriteMem {w : Nat} (W : Width w) (c : SpCheck) (mem : Word) (v : BitVec w) : Act Unit := do
  let u ← look id
  W.writeMem mem v
  change (fun s => s.aluMem u c w mem)

/-- `Rwn, Rwm`. -/
def aluRR {w : Nat} (W : Width w) (f : Alu w) (rn rm : Gpr) : Act Unit := do
  aluStep f (W.readGpr rm) (W.readGpr rn) (W.writeGpr rn)
  next 2

/-- `Rwn, [Rwi]`. -/
def aluRI {w : Nat} (W : Width w) (f : Alu w) (rn : Gpr) (ri : BitVec 2) : Act Unit := do
  aluStep f (readIndirect W (pointerOf ri)) (W.readGpr rn) (W.writeGpr rn)
  next 2

/-- `Rwn, [Rwi+]`. Where the pointer is also the data register, op1 and what the pointer ends with are free (U18). -/
def aluRIP {w : Nat} (W : Width w) (f : Alu w) (rn : Gpr) (ri : BitVec 2) : Act Unit := do
  let p := pointerOf ri
  if W.within rn p then
    aluStep f (readPostInc W p) (W.open_ 0) (fun _ => openPointer p)
  else
    aluStep f (readPostInc W p) (W.readGpr rn) (W.writeGpr rn)
  next 2

/-- `Rwn, #data3`. -/
def aluR3 {w : Nat} (W : Width w) (f : Alu w) (rn : Gpr) (d : BitVec 3) : Act Unit := do
  aluStep f (pure (d.setWidth w)) (W.readGpr rn) (W.writeGpr rn)
  next 2

/-- `reg, #data`. -/
def aluRegImm {w : Nat} (W : Width w) (f : Alu w) (c : SpCheck) (reg : Byte) (d : BitVec w) : Act Unit := do
  aluStep f (pure d) (W.readReg reg) (aluWriteReg W c reg)
  next 4

/-- `reg, mem`. -/
def aluRegMem {w : Nat} (W : Width w) (f : Alu w) (c : SpCheck) (reg : Byte) (mem : Word) : Act Unit := do
  aluStep f (W.readMem mem) (W.readReg reg) (aluWriteReg W c reg)
  next 4

/-- `mem, reg`. -/
def aluMemReg {w : Nat} (W : Width w) (f : Alu w) (c : SpCheck) (mem : Word) (reg : Byte) : Act Unit := do
  aluStep f (W.readReg reg) (W.readMem mem) (aluWriteMem W c mem)
  next 4

/-! ## Comparisons: the same operands, nothing written but flags and pointers (42_compare_loop.md R280, R281) -/

/-- A comparison writes no result. -/
def cmpStep {w : Nat} (op2 op1 : Act (BitVec w)) : Act Unit := aluStep aluSub op2 op1 (fun _ => pure ())

/-- `Rwn, Rwm`. -/
def cmpRR {w : Nat} (W : Width w) (rn rm : Gpr) : Act Unit := do
  cmpStep (W.readGpr rm) (W.readGpr rn)
  next 2

/-- `Rwn, [Rwi]`. -/
def cmpRI {w : Nat} (W : Width w) (rn : Gpr) (ri : BitVec 2) : Act Unit := do
  cmpStep (readIndirect W (pointerOf ri)) (W.readGpr rn)
  next 2

/-- `Rwn, [Rwi+]`. Where the pointer is also op1, op1 is free (U18), and the pointer ends incremented: DESIGN CHOICE (log
6), since a comparison writes nothing else to it. -/
def cmpRIP {w : Nat} (W : Width w) (rn : Gpr) (ri : BitVec 2) : Act Unit := do
  let p := pointerOf ri
  cmpStep (readPostInc W p) (if W.within rn p then W.open_ 0 else W.readGpr rn)
  next 2

/-- `Rwn, #data3`. -/
def cmpR3 {w : Nat} (W : Width w) (rn : Gpr) (d : BitVec 3) : Act Unit := do
  cmpStep (pure (d.setWidth w)) (W.readGpr rn)
  next 2

/-- `reg, #data`. -/
def cmpRegImm {w : Nat} (W : Width w) (reg : Byte) (d : BitVec w) : Act Unit := do
  cmpStep (pure d) (W.readReg reg)
  next 4

/-- `reg, mem`. -/
def cmpRegMem {w : Nat} (W : Width w) (reg : Byte) (mem : Word) : Act Unit := do
  cmpStep (W.readMem mem) (W.readReg reg)
  next 4

/-- CMPI1, CMPI2, CMPD1, CMPD2: compare Rwn with op2, then add `d` to Rwn (R283 to R286). -/
def cmpStepGpr (rn : Gpr) (op2 : Act Word) (d : Word) (len : Nat) : Act Unit := do
  aluStep aluSub op2 (readGpr rn) (fun _ => pure ())
  stepGpr rn d
  next len

/-! ## One operand: CPL, NEG -/

/-- Replace a GPR by a function of it, and set the flags. -/
def unaryGpr {w : Nat} (W : Width w) (f : BitVec w → BitVec w × Flags) (rn : Gpr) : Act Unit := do
  let a ← W.readGpr rn
  setFlags (f a).2
  W.writeGpr rn (f a).1
  next 2

/-! ## Shifts (44_shift_prior.md R330) -/

/-- Shift `Rwn` by a count. -/
def shiftGpr (f : Shift) (rn : Gpr) (count : Act (BitVec 4)) : Act Unit := do
  let k ← count
  let a ← readGpr rn
  setFlags (f a k.toNat).2
  writeGpr rn (f a k.toNat).1
  next 2

/-- The count in the low four bits of `Rwm`. -/
def shiftCount (rm : Gpr) : Act (BitVec 4) := do
  let v ← readGpr rm
  pure (v.extractLsb' 0 4)

/-! ## Moves (45_data_movement.md R350) -/

/-- Set the flags of a moved value. -/
def setMoveFlags {w : Nat} (v : BitVec w) : Act Unit := do
  let psw ← look (fun s => s.core.psw)
  setFlags (moveFlags psw v)

/-- Read a source, set the flags, write the destination. -/
def moveStep {w : Nat} (source : Act (BitVec w)) (write : BitVec w → Act Unit) : Act Unit := do
  let v ← source
  setMoveFlags v
  write v

/-- Write to `[Rwp]`. -/
def writeIndirect {w : Nat} (W : Width w) (p : Gpr) (v : BitVec w) : Act Unit := do
  let a ← readGpr p
  W.writeMem a v

/-- The address `[Rwm+#data16]`, modulo 2^16. -/
def baseOffset (rm : Gpr) (d : Word) : Act Word := do
  let a ← readGpr rm
  pure (a + d)

/-- `Rwn, [Rwm+]`. Where the pointer is also the destination, what it ends with is free (U18). -/
def movRIP {w : Nat} (W : Width w) (rn rm : Gpr) : Act Unit := do
  moveStep (readPostInc W rm) (if W.within rn rm then fun _ => openPointer rm else W.writeGpr rn)
  next 2

/-- `[-Rwm], Rwn`. Where the pointer is also the source, the moved value is free (U18). -/
def movDR {w : Nat} (W : Width w) (rm rn : Gpr) : Act Unit := do
  stepGpr rm (-W.step)
  moveStep (if W.within rn rm then W.open_ 0 else W.readGpr rn) (writeIndirect W rm)
  next 2

/-- `[Rwn+], [Rwm]`. -/
def movIPI {w : Nat} (W : Width w) (rn rm : Gpr) : Act Unit := do
  moveStep (readIndirect W rm) (writeIndirect W rn)
  stepGpr rn W.step
  next 2

/-- `Rwn, [Rwm+#data16]`. -/
def movRX {w : Nat} (W : Width w) (rn rm : Gpr) (d : Word) : Act Unit := do
  moveStep (do let a ← baseOffset rm d; W.readMem a) (W.writeGpr rn)
  next 4

/-- `[Rwm+#data16], Rwn`. -/
def movXR {w : Nat} (W : Width w) (rm : Gpr) (d : Word) (rn : Gpr) : Act Unit := do
  moveStep (W.readGpr rn) (fun v => do let a ← baseOffset rm d; W.writeMem a v)
  next 4

/-- A move between operands without auto-modification. -/
def movPlain {w : Nat} (source : Act (BitVec w)) (write : BitVec w → Act Unit) (len : Nat) : Act Unit := do
  moveStep source write
  next len

/-- MOVBS, MOVBZ: a byte extended to a word (R353, R354). -/
def moveExtend (signed : Bool) (source : Act Byte) (write : Word → Act Unit) (len : Nat) : Act Unit := do
  let b ← source
  let psw ← look (fun s => s.core.psw)
  setFlags (if signed then moveSignFlags psw b else moveZeroFlags psw b)
  write (if signed then b.signExtend 16 else b.setWidth 16)
  next len

/-! ## Bit operands (43_bit.md R311) -/

/-- BSET, BCLR. -/
def bitAssign (bitoff : Byte) (q : BitVec 4) (v : Bool) : Act Unit := do
  let l ← bitLoc bitoff
  let w ← readBitLoc l
  setFlags (bitFlags (wbit w q.toNat))
  writeBitLoc l (wset w q.toNat v) (bitMask q.toNat)
  next 2

/-- The bit instructions with destination bit Z and source bit Q: the words are read, the flags set, and the new bit
`f d s` written; BCMP writes nothing. A word that holds both bits is read once. -/
def bitPair (bitoffZ : Byte) (z : BitVec 4) (bitoffQ : Byte) (q : BitVec 4) (fl : Bool → Bool → Flags)
    (f : Option (Bool → Bool → Bool)) : Act Unit := do
  let lq ← bitLoc bitoffQ
  let ws ← readBitLoc lq
  let lz ← bitLoc bitoffZ
  let wd ← if bitoffZ = bitoffQ then pure ws else readBitLoc lz
  let s := wbit ws q.toNat
  let d := wbit wd z.toNat
  setFlags (fl d s)
  match f with
  | some g => writeBitLoc lz (wset wd z.toNat (g d s)) (bitMask z.toNat)
  | none => pure ()
  next 4

/-- BFLDH and BFLDL: `mask` and `data` stand in the byte of the field (R301, R302). -/
def bitField (bitoff : Byte) (mask data : Word) : Act Unit := do
  let l ← bitLoc bitoff
  let w ← readBitLoc l
  let r := (w &&& ~~~mask) ||| data
  setFlags (fieldFlags r)
  writeBitLoc l r (mask ||| data)
  next 4

/-! ## Branches (47_jump.md R400) -/

/-- The branch condition on the flags the preceding instruction left. -/
def State.holds (s : State) (cc : Cc) : Bool := condition cc (flagsOf s.core.psw)

/-- The target of a relative branch: `rel` words after the end of an instruction of `len` bytes. -/
def State.relTarget (s : State) (len : Nat) (rel : Byte) : Word :=
  s.core.ip + BitVec.ofNat 16 len + (rel.signExtend 16 <<< 1)

/-- JB, JNB: branch if the bit is `v`. -/
def jumpBit (bitoff : Byte) (q : BitVec 4) (rel : Byte) (v : Bool) : Act Unit := do
  let l ← bitLoc bitoff
  let w ← readBitLoc l
  if wbit w q.toNat = v then
    let t ← look (fun s => s.relTarget 4 rel)
    cacheJump t
  else next 4

/-- JBC, JNBS: branch if the bit is `v`, and then invert it (R408, R409). -/
def jumpBitChange (bitoff : Byte) (q : BitVec 4) (rel : Byte) (v : Bool) : Act Unit := do
  let l ← bitLoc bitoff
  let w ← readBitLoc l
  let psw ← look (fun s => s.core.psw)
  setFlags (bitTestFlags psw (wbit w q.toNat))
  if wbit w q.toNat = v then
    writeBitLoc l (wset w q.toNat (!v)) (bitMask q.toNat)
    let t ← look (fun s => s.relTarget 4 rel)
    cacheJump t
  else next 4

/-- Push the address after a call of `len` bytes. -/
def pushReturn (len : Nat) : Act Unit := do
  let ret ← look (fun s => s.core.ip + BitVec.ofNat 16 len)
  push ret

/-! ## Multiply and divide (40_arithmetic.md R229 to R234, R245) -/

/-- A multiply or divide leaves MDRIU set and free values in the internal bits of MDC (10_state.md R58, R59, U8). -/
def setMd (mdh mdl : Word) : Act Unit := do
  let k ← openWord .mdcInternal 0
  change (fun s => { s with core := { s.core with mdh := mdh, mdl := mdl, mdc := 0x10 ||| (k &&& 0xEF) } })

/-- The frame of an interrupted multiply or divide that the instruction `m` at the program counter resumes, with the
operands `a` and `b`: RETI found MULIP set, or a hardware trap held up what that RETI was to resume (log 11); it is the same
instruction and nothing it depends on has changed (R245). -/
def State.suspendedFrame (s : State) (m : MulInstr) (a b : Word) : Option MulFrame :=
  s.sys.suspended.find? (fun f =>
    (s.sys.resume || f.held) && f.instr == m && f.addr == s.pcAddr.toNat && f.opA == a && f.opB == b
      && f.kMdh == s.core.mdh && f.kMdl == s.core.mdl && f.kMdc == s.core.mdc)

/-- An interrupted instruction continues from MDH and MDL as they were when it started. False where RETI found MULIP set
and what the instruction depends on has changed: its result is undefined (R245, U20, log 29). -/
def resumeFrame (m : MulInstr) (a b : Word) : Act Bool := do
  let resume ← look (fun s => s.sys.resume)
  match ← look (fun s => s.suspendedFrame m a b) with
  | none =>
    change (fun s => { s with sys := { s.sys with resume := false } })
    pure !resume
  | some f =>
    change (fun s => { s with
      core := { s.core with mdh := f.mdh, mdl := f.mdl }
      sys := { s.sys with resume := false, suspended := s.sys.suspended.erase f } })
    pure true

/-- The result of a multiplication: the product `p` with its flags, or a free product with flags that follow from it
(`overflow`: the product does not fit in a word). -/
def productOf (known : Bool) (p : BitVec 32 × Flags) (overflow : BitVec 32 → Bool) : Act (BitVec 32 × Flags) := do
  if known then pure p
  else
    let h ← openWord .undefinedResult 0
    let l ← openWord .undefinedResult 1
    pure (h ++ l, mulFlags (h ++ l) (overflow (h ++ l)))

/-- A 32-bit signed product does not fit in a word. -/
def signedOverflow (p : BitVec 32) : Bool := decide (p.toInt < -0x8000) || decide (0x7FFF < p.toInt)

/-- A 32-bit unsigned product does not fit in a word. -/
def unsignedOverflow (p : BitVec 32) : Bool := decide (0xFFFF < p.toNat)

/-- MUL and MULU: the product goes to MDH and MDL. -/
def multiply (op : MulOp) (f : Word → Word → BitVec 32 × Flags) (overflow : BitVec 32 → Bool) (rn rm : Gpr) :
    Act Unit := do
  let a ← readGpr rn
  let b ← readGpr rm
  let known ← resumeFrame { op := op, rn := rn, rm := rm } a b
  let r ← productOf known (f a b) overflow
  setFlags r.2
  setMd (r.1.extractLsb' 16 16) (r.1.extractLsb' 0 16)
  next 2

/-- The flags of a division whose result is undefined: Z and N are free values of their own (U19). -/
def State.openFlags (s : State) (v : Bool) : Flags :=
  { e := false, z := Config.freeBool .divFlags s.free 0, v := v, c := false, n := Config.freeBool .divFlags s.free 1 }

/-- The four divisions: quotient to MDL, remainder to MDH; on overflow V is set, and both and the flags Z and N are free
(U19). Where the result is undefined as a whole (U20), V is free too. -/
def divide (op : MulOp) (f : Division) (rn : Gpr) : Act Unit := do
  let d ← readGpr rn
  let known ← resumeFrame { op := op, rn := rn, rm := rn } d d
  match ← look (fun s => if known then f s.core.mdh s.core.mdl d else none) with
  | some (q, r) =>
    setFlags (divFlags q)
    setMd r q
  | none =>
    let q ← openWord .divQuotient 0
    let r ← openWord .divRemainder 0
    let f ← look (fun s => s.openFlags (known || Config.freeBool .undefinedResult s.free 2))
    setFlags f
    setMd r q
  next 2

/-! ## Locked sequences (49_system.md R460) -/

/-- Start the extension counter. -/
def startExt (count : Nat) (esfr : Bool) (ovr : Override) : Act Unit :=
  change (fun s => { s with sys := { s.sys with ext := { count := count, esfr := esfr, ovr := ovr } } })

/-- The page in a word GPR. -/
def pageOf (rm : Gpr) : Act Override := do
  let v ← readGpr rm
  pure (.page (v.extractLsb' 0 10))

/-- The segment in a word GPR. -/
def segOf (rm : Gpr) : Act Override := do
  let v ← readGpr rm
  pure (.seg (loByte v))

/-- The six extension instructions. -/
def extend (count : Nat) (esfr : Bool) (ovr : Act Override) (len : Nat) : Act Unit := do
  let o ← ovr
  startExt count esfr o
  next len

end Sys2Proof.Machine
end

