-- ==== Sys2Proof/Machine/Arith.lean ====
section
/-! DEFINITION. Addition, subtraction, multiplication, division, complement and negation (40_arithmetic.md): one meaning for each instruction and operand form. -/
namespace Sys2Proof.Machine

/-- ADD Rwn, Rwm (R221). -/
def execAddRR (rn : Gpr) (rm : Gpr) (s : State) : Result :=
  (aluRR wordW aluAdd rn rm).toOutcome s

/-- ADD Rwn, [Rwi] (R221). -/
def execAddRI (rn : Gpr) (ri : BitVec 2) (s : State) : Result :=
  (aluRI wordW aluAdd rn ri).toOutcome s

/-- ADD Rwn, [Rwi+] (R221). -/
def execAddRIP (rn : Gpr) (ri : BitVec 2) (s : State) : Result :=
  (aluRIP wordW aluAdd rn ri).toOutcome s

/-- ADD Rwn, #data3 (R221). -/
def execAddR3 (rn : Gpr) (d : BitVec 3) (s : State) : Result :=
  (aluR3 wordW aluAdd rn d).toOutcome s

/-- ADD reg, #data16 (R221). -/
def execAddRegImm (reg : Byte) (d : Word) (s : State) : Result :=
  (aluRegImm wordW aluAdd .underflow reg d).toOutcome s

/-- ADD reg, mem (R221). -/
def execAddRegMem (reg : Byte) (mem : Word) (s : State) : Result :=
  (aluRegMem wordW aluAdd .underflow reg mem).toOutcome s

/-- ADD mem, reg (R221). -/
def execAddMemReg (mem : Word) (reg : Byte) (s : State) : Result :=
  (aluMemReg wordW aluAdd .underflow mem reg).toOutcome s

/-- ADDB Rbn, Rbm (R222). -/
def execAddbRR (rn : Gpr) (rm : Gpr) (s : State) : Result :=
  (aluRR byteW aluAdd rn rm).toOutcome s

/-- ADDB Rbn, [Rwi] (R222). -/
def execAddbRI (rn : Gpr) (ri : BitVec 2) (s : State) : Result :=
  (aluRI byteW aluAdd rn ri).toOutcome s

/-- ADDB Rbn, [Rwi+] (R222). -/
def execAddbRIP (rn : Gpr) (ri : BitVec 2) (s : State) : Result :=
  (aluRIP byteW aluAdd rn ri).toOutcome s

/-- ADDB Rbn, #data3 (R222). -/
def execAddbR3 (rn : Gpr) (d : BitVec 3) (s : State) : Result :=
  (aluR3 byteW aluAdd rn d).toOutcome s

/-- ADDB reg, #data8 (R222). -/
def execAddbRegImm (reg : Byte) (d : Byte) (s : State) : Result :=
  (aluRegImm byteW aluAdd .underflow reg d).toOutcome s

/-- ADDB reg, mem (R222). -/
def execAddbRegMem (reg : Byte) (mem : Word) (s : State) : Result :=
  (aluRegMem byteW aluAdd .underflow reg mem).toOutcome s

/-- ADDB mem, reg (R222). -/
def execAddbMemReg (mem : Word) (reg : Byte) (s : State) : Result :=
  (aluMemReg byteW aluAdd .underflow mem reg).toOutcome s

/-- ADDC Rwn, Rwm (R223). -/
def execAddcRR (rn : Gpr) (rm : Gpr) (s : State) : Result :=
  (aluRR wordW aluAddc rn rm).toOutcome s

/-- ADDC Rwn, [Rwi] (R223). -/
def execAddcRI (rn : Gpr) (ri : BitVec 2) (s : State) : Result :=
  (aluRI wordW aluAddc rn ri).toOutcome s

/-- ADDC Rwn, [Rwi+] (R223). -/
def execAddcRIP (rn : Gpr) (ri : BitVec 2) (s : State) : Result :=
  (aluRIP wordW aluAddc rn ri).toOutcome s

/-- ADDC Rwn, #data3 (R223). -/
def execAddcR3 (rn : Gpr) (d : BitVec 3) (s : State) : Result :=
  (aluR3 wordW aluAddc rn d).toOutcome s

/-- ADDC reg, #data16 (R223). -/
def execAddcRegImm (reg : Byte) (d : Word) (s : State) : Result :=
  (aluRegImm wordW aluAddc .underflow reg d).toOutcome s

/-- ADDC reg, mem (R223). -/
def execAddcRegMem (reg : Byte) (mem : Word) (s : State) : Result :=
  (aluRegMem wordW aluAddc .underflow reg mem).toOutcome s

/-- ADDC mem, reg (R223). -/
def execAddcMemReg (mem : Word) (reg : Byte) (s : State) : Result :=
  (aluMemReg wordW aluAddc .underflow mem reg).toOutcome s

/-- ADDCB Rbn, Rbm (R224). -/
def execAddcbRR (rn : Gpr) (rm : Gpr) (s : State) : Result :=
  (aluRR byteW aluAddc rn rm).toOutcome s

/-- ADDCB Rbn, [Rwi] (R224). -/
def execAddcbRI (rn : Gpr) (ri : BitVec 2) (s : State) : Result :=
  (aluRI byteW aluAddc rn ri).toOutcome s

/-- ADDCB Rbn, [Rwi+] (R224). -/
def execAddcbRIP (rn : Gpr) (ri : BitVec 2) (s : State) : Result :=
  (aluRIP byteW aluAddc rn ri).toOutcome s

/-- ADDCB Rbn, #data3 (R224). -/
def execAddcbR3 (rn : Gpr) (d : BitVec 3) (s : State) : Result :=
  (aluR3 byteW aluAddc rn d).toOutcome s

/-- ADDCB reg, #data8 (R224). -/
def execAddcbRegImm (reg : Byte) (d : Byte) (s : State) : Result :=
  (aluRegImm byteW aluAddc .underflow reg d).toOutcome s

/-- ADDCB reg, mem (R224). -/
def execAddcbRegMem (reg : Byte) (mem : Word) (s : State) : Result :=
  (aluRegMem byteW aluAddc .underflow reg mem).toOutcome s

/-- ADDCB mem, reg (R224). -/
def execAddcbMemReg (mem : Word) (reg : Byte) (s : State) : Result :=
  (aluMemReg byteW aluAddc .underflow mem reg).toOutcome s

/-- SUB Rwn, Rwm (R225). -/
def execSubRR (rn : Gpr) (rm : Gpr) (s : State) : Result :=
  (aluRR wordW aluSub rn rm).toOutcome s

/-- SUB Rwn, [Rwi] (R225). -/
def execSubRI (rn : Gpr) (ri : BitVec 2) (s : State) : Result :=
  (aluRI wordW aluSub rn ri).toOutcome s

/-- SUB Rwn, [Rwi+] (R225). -/
def execSubRIP (rn : Gpr) (ri : BitVec 2) (s : State) : Result :=
  (aluRIP wordW aluSub rn ri).toOutcome s

/-- SUB Rwn, #data3 (R225). -/
def execSubR3 (rn : Gpr) (d : BitVec 3) (s : State) : Result :=
  (aluR3 wordW aluSub rn d).toOutcome s

/-- SUB reg, #data16 (R225). -/
def execSubRegImm (reg : Byte) (d : Word) (s : State) : Result :=
  (aluRegImm wordW aluSub .overflow reg d).toOutcome s

/-- SUB reg, mem (R225). -/
def execSubRegMem (reg : Byte) (mem : Word) (s : State) : Result :=
  (aluRegMem wordW aluSub .overflow reg mem).toOutcome s

/-- SUB mem, reg (R225). -/
def execSubMemReg (mem : Word) (reg : Byte) (s : State) : Result :=
  (aluMemReg wordW aluSub .overflow mem reg).toOutcome s

/-- SUBB Rbn, Rbm (R226). -/
def execSubbRR (rn : Gpr) (rm : Gpr) (s : State) : Result :=
  (aluRR byteW aluSub rn rm).toOutcome s

/-- SUBB Rbn, [Rwi] (R226). -/
def execSubbRI (rn : Gpr) (ri : BitVec 2) (s : State) : Result :=
  (aluRI byteW aluSub rn ri).toOutcome s

/-- SUBB Rbn, [Rwi+] (R226). -/
def execSubbRIP (rn : Gpr) (ri : BitVec 2) (s : State) : Result :=
  (aluRIP byteW aluSub rn ri).toOutcome s

/-- SUBB Rbn, #data3 (R226). -/
def execSubbR3 (rn : Gpr) (d : BitVec 3) (s : State) : Result :=
  (aluR3 byteW aluSub rn d).toOutcome s

/-- SUBB reg, #data8 (R226). -/
def execSubbRegImm (reg : Byte) (d : Byte) (s : State) : Result :=
  (aluRegImm byteW aluSub .overflow reg d).toOutcome s

/-- SUBB reg, mem (R226). -/
def execSubbRegMem (reg : Byte) (mem : Word) (s : State) : Result :=
  (aluRegMem byteW aluSub .overflow reg mem).toOutcome s

/-- SUBB mem, reg (R226). -/
def execSubbMemReg (mem : Word) (reg : Byte) (s : State) : Result :=
  (aluMemReg byteW aluSub .overflow mem reg).toOutcome s

/-- SUBC Rwn, Rwm (R227). -/
def execSubcRR (rn : Gpr) (rm : Gpr) (s : State) : Result :=
  (aluRR wordW aluSubc rn rm).toOutcome s

/-- SUBC Rwn, [Rwi] (R227). -/
def execSubcRI (rn : Gpr) (ri : BitVec 2) (s : State) : Result :=
  (aluRI wordW aluSubc rn ri).toOutcome s

/-- SUBC Rwn, [Rwi+] (R227). -/
def execSubcRIP (rn : Gpr) (ri : BitVec 2) (s : State) : Result :=
  (aluRIP wordW aluSubc rn ri).toOutcome s

/-- SUBC Rwn, #data3 (R227). -/
def execSubcR3 (rn : Gpr) (d : BitVec 3) (s : State) : Result :=
  (aluR3 wordW aluSubc rn d).toOutcome s

/-- SUBC reg, #data16 (R227). -/
def execSubcRegImm (reg : Byte) (d : Word) (s : State) : Result :=
  (aluRegImm wordW aluSubc .overflow reg d).toOutcome s

/-- SUBC reg, mem (R227). -/
def execSubcRegMem (reg : Byte) (mem : Word) (s : State) : Result :=
  (aluRegMem wordW aluSubc .overflow reg mem).toOutcome s

/-- SUBC mem, reg (R227). -/
def execSubcMemReg (mem : Word) (reg : Byte) (s : State) : Result :=
  (aluMemReg wordW aluSubc .overflow mem reg).toOutcome s

/-- SUBCB Rbn, Rbm (R228). -/
def execSubcbRR (rn : Gpr) (rm : Gpr) (s : State) : Result :=
  (aluRR byteW aluSubc rn rm).toOutcome s

/-- SUBCB Rbn, [Rwi] (R228). -/
def execSubcbRI (rn : Gpr) (ri : BitVec 2) (s : State) : Result :=
  (aluRI byteW aluSubc rn ri).toOutcome s

/-- SUBCB Rbn, [Rwi+] (R228). -/
def execSubcbRIP (rn : Gpr) (ri : BitVec 2) (s : State) : Result :=
  (aluRIP byteW aluSubc rn ri).toOutcome s

/-- SUBCB Rbn, #data3 (R228). -/
def execSubcbR3 (rn : Gpr) (d : BitVec 3) (s : State) : Result :=
  (aluR3 byteW aluSubc rn d).toOutcome s

/-- SUBCB reg, #data8 (R228). -/
def execSubcbRegImm (reg : Byte) (d : Byte) (s : State) : Result :=
  (aluRegImm byteW aluSubc .overflow reg d).toOutcome s

/-- SUBCB reg, mem (R228). -/
def execSubcbRegMem (reg : Byte) (mem : Word) (s : State) : Result :=
  (aluRegMem byteW aluSubc .overflow reg mem).toOutcome s

/-- SUBCB mem, reg (R228). -/
def execSubcbMemReg (mem : Word) (reg : Byte) (s : State) : Result :=
  (aluMemReg byteW aluSubc .overflow mem reg).toOutcome s

/-- MUL Rwn, Rwm (R229). -/
def execMul (rn : Gpr) (rm : Gpr) (s : State) : Result :=
  (multiply .mul mulSigned signedOverflow rn rm).toOutcome s

/-- MULU Rwn, Rwm (R230). -/
def execMulu (rn : Gpr) (rm : Gpr) (s : State) : Result :=
  (multiply .mulu mulUnsigned unsignedOverflow rn rm).toOutcome s

/-- DIV Rwn (R231). -/
def execDiv (rn : Gpr) (s : State) : Result :=
  (divide .div divDiv rn).toOutcome s

/-- DIVU Rwn (R232). -/
def execDivu (rn : Gpr) (s : State) : Result :=
  (divide .divu divDivu rn).toOutcome s

/-- DIVL Rwn (R233). -/
def execDivl (rn : Gpr) (s : State) : Result :=
  (divide .divl divDivl rn).toOutcome s

/-- DIVLU Rwn (R234). -/
def execDivlu (rn : Gpr) (s : State) : Result :=
  (divide .divlu divDivlu rn).toOutcome s

/-- CPL Rwn (R235). -/
def execCpl (rn : Gpr) (s : State) : Result :=
  (unaryGpr wordW cplOf rn).toOutcome s

/-- CPLB Rbn (R236). -/
def execCplb (rn : Gpr) (s : State) : Result :=
  (unaryGpr byteW cplOf rn).toOutcome s

/-- NEG Rwn (R237). -/
def execNeg (rn : Gpr) (s : State) : Result :=
  (unaryGpr wordW negOf rn).toOutcome s

/-- NEGB Rbn (R238). -/
def execNegb (rn : Gpr) (s : State) : Result :=
  (unaryGpr byteW negOf rn).toOutcome s

end Sys2Proof.Machine
end

