-- ==== Sys2Proof/Machine/Bitops.lean ====
section
/-! DEFINITION. Boolean bit manipulation (43_bit.md): one meaning for each instruction and operand form. -/
namespace Sys2Proof.Machine

/-- BFLDL bitoffQ, #mask8, #data8 (R302). -/
def execBfldl (bitoff : Byte) (mask : Byte) (d : Byte) (s : State) : Result :=
  (bitField bitoff (mkWord mask 0) (mkWord d 0)).toOutcome s

/-- BFLDH bitoffQ, #mask8, #data8 (R301). -/
def execBfldh (bitoff : Byte) (mask : Byte) (d : Byte) (s : State) : Result :=
  (bitField bitoff (mkWord 0 mask) (mkWord 0 d)).toOutcome s

/-- BCMP bitaddrZ.z, bitaddrQ.q (R310). -/
def execBcmp (bitoffZ : Byte) (z : BitVec 4) (bitoffQ : Byte) (q : BitVec 4) (s : State) : Result :=
  (bitPair bitoffZ z bitoffQ q bitPairFlags none).toOutcome s

/-- BMOVN bitaddrZ.z, bitaddrQ.q (R306). -/
def execBmovn (bitoffZ : Byte) (z : BitVec 4) (bitoffQ : Byte) (q : BitVec 4) (s : State) : Result :=
  (bitPair bitoffZ z bitoffQ q (fun _ s => bitFlags s) (some (fun _ s => !s))).toOutcome s

/-- BMOV bitaddrZ.z, bitaddrQ.q (R305). -/
def execBmov (bitoffZ : Byte) (z : BitVec 4) (bitoffQ : Byte) (q : BitVec 4) (s : State) : Result :=
  (bitPair bitoffZ z bitoffQ q (fun _ s => bitFlags s) (some (fun _ s => s))).toOutcome s

/-- BOR bitaddrZ.z, bitaddrQ.q (R308). -/
def execBor (bitoffZ : Byte) (z : BitVec 4) (bitoffQ : Byte) (q : BitVec 4) (s : State) : Result :=
  (bitPair bitoffZ z bitoffQ q bitPairFlags (some (fun d s => d || s))).toOutcome s

/-- BAND bitaddrZ.z, bitaddrQ.q (R307). -/
def execBand (bitoffZ : Byte) (z : BitVec 4) (bitoffQ : Byte) (q : BitVec 4) (s : State) : Result :=
  (bitPair bitoffZ z bitoffQ q bitPairFlags (some (fun d s => d && s))).toOutcome s

/-- BXOR bitaddrZ.z, bitaddrQ.q (R309). -/
def execBxor (bitoffZ : Byte) (z : BitVec 4) (bitoffQ : Byte) (q : BitVec 4) (s : State) : Result :=
  (bitPair bitoffZ z bitoffQ q bitPairFlags (some (fun d s => d != s))).toOutcome s

/-- BCLR bitaddrQ.q (R304). -/
def execBclr (bitoff : Byte) (q : BitVec 4) (s : State) : Result :=
  (bitAssign bitoff q false).toOutcome s

/-- BSET bitaddrQ.q (R303). -/
def execBset (bitoff : Byte) (q : BitVec 4) (s : State) : Result :=
  (bitAssign bitoff q true).toOutcome s

end Sys2Proof.Machine
end

