-- ==== Sys2Proof/Machine/Call.lean ====
section
/-! DEFINITION. Calls, TRAP and returns (48_call_return.md): one meaning for each instruction and operand form. -/
namespace Sys2Proof.Machine

/-- CALLA cc, caddr (R421). -/
def execCalla (cc : Cc) (caddr : Word) (s : State) : Result :=
  (do
    if ← look (fun s => s.holds cc) then
      pushReturn 4
      absolute caddr
      jump caddr
    else next 4 : Act Unit).toOutcome s

/-- CALLI cc, [Rwn] (R422). -/
def execCalli (cc : Cc) (rn : Gpr) (s : State) : Result :=
  (do
    if ← look (fun s => s.holds cc) then
      let t ← readGpr rn
      pushReturn 2
      jump t
    else next 2 : Act Unit).toOutcome s

/-- CALLR rel (R423). -/
def execCallr (rel : Byte) (s : State) : Result :=
  (do
    let t ← look (fun s => s.relTarget 2 rel)
    pushReturn 2
    jump t : Act Unit).toOutcome s

/-- CALLS seg, caddr (R424). -/
def execCalls (seg : Byte) (caddr : Word) (s : State) : Result :=
  (do
    let csp ← look (fun s => s.core.csp)
    push (csp.setWidth 16)
    pushReturn 4
    setCsp seg
    absolute caddr
    flushCache
    jump caddr : Act Unit).toOutcome s

/-- PCALL reg, caddr (R425). -/
def execPcall (reg : Byte) (caddr : Word) (s : State) : Result :=
  (do
    let v ← readReg reg
    push v
    pushReturn 4
    setMoveFlags v
    jump caddr : Act Unit).toOutcome s

/-- TRAP #trap7 (R426). -/
def execTrap (trap7 : BitVec 7) (s : State) : Result :=
  (do
    let ret ← look (fun s => s.core.ip + 2)
    enter trap7.toNat none ret false : Act Unit).toOutcome s

/-- RET (R431). -/
def execRet (s : State) : Result :=
  (do
    let ip ← pop
    jump ip : Act Unit).toOutcome s

/-- RETS (R432). -/
def execRets (s : State) : Result :=
  (do
    let ip ← pop
    let csp ← pop
    setCsp (loByte csp)
    flushCache
    jump ip : Act Unit).toOutcome s

/-- RETP reg (R433). DESIGN CHOICE (log 83): the register is written before the branch is made, so that ILLINA of an odd
popped IP (60_exceptions.md R563) is set in what RETP TFR has written. -/
def execRetp (reg : Byte) (s : State) : Result :=
  (do
    let ip ← pop
    let v ← pop
    setMoveFlags v
    writeReg reg v
    jump ip : Act Unit).toOutcome s

/-- RETI (R436). -/
def execReti (s : State) : Result :=
  (returnFromTrap).toOutcome s

end Sys2Proof.Machine
end

