-- ==== Sys2Proof/Machine/Compare.lean ====
section
/-! DEFINITION. Comparisons and loop control (42_compare_loop.md): one meaning for each instruction and operand form. -/
namespace Sys2Proof.Machine

/-- CMP Rwn, Rwm (R281). -/
def execCmpRR (rn : Gpr) (rm : Gpr) (s : State) : Result :=
  (cmpRR wordW rn rm).toOutcome s

/-- CMP Rwn, [Rwi] (R281). -/
def execCmpRI (rn : Gpr) (ri : BitVec 2) (s : State) : Result :=
  (cmpRI wordW rn ri).toOutcome s

/-- CMP Rwn, [Rwi+] (R281). -/
def execCmpRIP (rn : Gpr) (ri : BitVec 2) (s : State) : Result :=
  (cmpRIP wordW rn ri).toOutcome s

/-- CMP Rwn, #data3 (R281). -/
def execCmpR3 (rn : Gpr) (d : BitVec 3) (s : State) : Result :=
  (cmpR3 wordW rn d).toOutcome s

/-- CMP reg, #data16 (R281). -/
def execCmpRegImm (reg : Byte) (d : Word) (s : State) : Result :=
  (cmpRegImm wordW reg d).toOutcome s

/-- CMP reg, mem (R281). -/
def execCmpRegMem (reg : Byte) (mem : Word) (s : State) : Result :=
  (cmpRegMem wordW reg mem).toOutcome s

/-- CMPB Rbn, Rbm (R282). -/
def execCmpbRR (rn : Gpr) (rm : Gpr) (s : State) : Result :=
  (cmpRR byteW rn rm).toOutcome s

/-- CMPB Rbn, [Rwi] (R282). -/
def execCmpbRI (rn : Gpr) (ri : BitVec 2) (s : State) : Result :=
  (cmpRI byteW rn ri).toOutcome s

/-- CMPB Rbn, [Rwi+] (R282). -/
def execCmpbRIP (rn : Gpr) (ri : BitVec 2) (s : State) : Result :=
  (cmpRIP byteW rn ri).toOutcome s

/-- CMPB Rbn, #data3 (R282). -/
def execCmpbR3 (rn : Gpr) (d : BitVec 3) (s : State) : Result :=
  (cmpR3 byteW rn d).toOutcome s

/-- CMPB reg, #data8 (R282). -/
def execCmpbRegImm (reg : Byte) (d : Byte) (s : State) : Result :=
  (cmpRegImm byteW reg d).toOutcome s

/-- CMPB reg, mem (R282). -/
def execCmpbRegMem (reg : Byte) (mem : Word) (s : State) : Result :=
  (cmpRegMem byteW reg mem).toOutcome s

/-- CMPI1 Rwn, #data4 (R283). -/
def execCmpi1R4 (rn : Gpr) (d : BitVec 4) (s : State) : Result :=
  (cmpStepGpr rn (pure (d.setWidth 16)) 1 2).toOutcome s

/-- CMPI1 Rwn, #data16 (R283). -/
def execCmpi1R16 (rn : Gpr) (d : Word) (s : State) : Result :=
  (cmpStepGpr rn (pure d) 1 4).toOutcome s

/-- CMPI1 Rwn, mem (R283). -/
def execCmpi1RMem (rn : Gpr) (mem : Word) (s : State) : Result :=
  (cmpStepGpr rn (readMem mem) 1 4).toOutcome s

/-- CMPI2 Rwn, #data4 (R284). -/
def execCmpi2R4 (rn : Gpr) (d : BitVec 4) (s : State) : Result :=
  (cmpStepGpr rn (pure (d.setWidth 16)) 2 2).toOutcome s

/-- CMPI2 Rwn, #data16 (R284). -/
def execCmpi2R16 (rn : Gpr) (d : Word) (s : State) : Result :=
  (cmpStepGpr rn (pure d) 2 4).toOutcome s

/-- CMPI2 Rwn, mem (R284). -/
def execCmpi2RMem (rn : Gpr) (mem : Word) (s : State) : Result :=
  (cmpStepGpr rn (readMem mem) 2 4).toOutcome s

/-- CMPD1 Rwn, #data4 (R285). -/
def execCmpd1R4 (rn : Gpr) (d : BitVec 4) (s : State) : Result :=
  (cmpStepGpr rn (pure (d.setWidth 16)) (-1) 2).toOutcome s

/-- CMPD1 Rwn, #data16 (R285). -/
def execCmpd1R16 (rn : Gpr) (d : Word) (s : State) : Result :=
  (cmpStepGpr rn (pure d) (-1) 4).toOutcome s

/-- CMPD1 Rwn, mem (R285). -/
def execCmpd1RMem (rn : Gpr) (mem : Word) (s : State) : Result :=
  (cmpStepGpr rn (readMem mem) (-1) 4).toOutcome s

/-- CMPD2 Rwn, #data4 (R286). -/
def execCmpd2R4 (rn : Gpr) (d : BitVec 4) (s : State) : Result :=
  (cmpStepGpr rn (pure (d.setWidth 16)) (-2) 2).toOutcome s

/-- CMPD2 Rwn, #data16 (R286). -/
def execCmpd2R16 (rn : Gpr) (d : Word) (s : State) : Result :=
  (cmpStepGpr rn (pure d) (-2) 4).toOutcome s

/-- CMPD2 Rwn, mem (R286). -/
def execCmpd2RMem (rn : Gpr) (mem : Word) (s : State) : Result :=
  (cmpStepGpr rn (readMem mem) (-2) 4).toOutcome s

end Sys2Proof.Machine
end

