-- ==== Sys2Proof/Machine/Jump.lean ====
section
/-! DEFINITION. Jumps (47_jump.md): one meaning for each instruction and operand form. -/
namespace Sys2Proof.Machine

/-- JMPA cc, caddr (R401). -/
def execJmpa (cc : Cc) (caddr : Word) (s : State) : Result :=
  (do
    if ← look (fun s => s.holds cc) then
      absolute caddr
      cacheJump caddr
    else next 4 : Act Unit).toOutcome s

/-- JMPI cc, [Rwn] (R402). -/
def execJmpi (cc : Cc) (rn : Gpr) (s : State) : Result :=
  (do
    if ← look (fun s => s.holds cc) then
      let t ← readGpr rn
      jump t
    else next 2 : Act Unit).toOutcome s

/-- JMPR cc, rel (R403). -/
def execJmpr (cc : Cc) (rel : Byte) (s : State) : Result :=
  (do
    if ← look (fun s => s.holds cc) then
      let t ← look (fun s => s.relTarget 2 rel)
      cacheJump t
    else next 2 : Act Unit).toOutcome s

/-- JMPS seg, caddr (R404). -/
def execJmps (seg : Byte) (caddr : Word) (s : State) : Result :=
  (do
    setCsp seg
    absolute caddr
    flushCache
    jump caddr : Act Unit).toOutcome s

/-- JB bitaddrQ.q, rel (R406). -/
def execJb (bitoff : Byte) (q : BitVec 4) (rel : Byte) (s : State) : Result :=
  (jumpBit bitoff q rel true).toOutcome s

/-- JNB bitaddrQ.q, rel (R407). -/
def execJnb (bitoff : Byte) (q : BitVec 4) (rel : Byte) (s : State) : Result :=
  (jumpBit bitoff q rel false).toOutcome s

/-- JBC bitaddrQ.q, rel (R408). -/
def execJbc (bitoff : Byte) (q : BitVec 4) (rel : Byte) (s : State) : Result :=
  (jumpBitChange bitoff q rel true).toOutcome s

/-- JNBS bitaddrQ.q, rel (R409). -/
def execJnbs (bitoff : Byte) (q : BitVec 4) (rel : Byte) (s : State) : Result :=
  (jumpBitChange bitoff q rel false).toOutcome s

end Sys2Proof.Machine
end

