-- ==== Sys2Proof/Machine/Logic.lean ====
section
/-! DEFINITION. AND, OR, XOR and their byte forms (41_logical.md): one meaning for each instruction and operand form. -/
namespace Sys2Proof.Machine

/-- XOR Rwn, Rwm (R265). -/
def execXorRR (rn : Gpr) (rm : Gpr) (s : State) : Result :=
  (aluRR wordW aluXor rn rm).toOutcome s

/-- XOR Rwn, [Rwi] (R265). -/
def execXorRI (rn : Gpr) (ri : BitVec 2) (s : State) : Result :=
  (aluRI wordW aluXor rn ri).toOutcome s

/-- XOR Rwn, [Rwi+] (R265). -/
def execXorRIP (rn : Gpr) (ri : BitVec 2) (s : State) : Result :=
  (aluRIP wordW aluXor rn ri).toOutcome s

/-- XOR Rwn, #data3 (R265). -/
def execXorR3 (rn : Gpr) (d : BitVec 3) (s : State) : Result :=
  (aluR3 wordW aluXor rn d).toOutcome s

/-- XOR reg, #data16 (R265). -/
def execXorRegImm (reg : Byte) (d : Word) (s : State) : Result :=
  (aluRegImm wordW aluXor .none reg d).toOutcome s

/-- XOR reg, mem (R265). -/
def execXorRegMem (reg : Byte) (mem : Word) (s : State) : Result :=
  (aluRegMem wordW aluXor .none reg mem).toOutcome s

/-- XOR mem, reg (R265). -/
def execXorMemReg (mem : Word) (reg : Byte) (s : State) : Result :=
  (aluMemReg wordW aluXor .none mem reg).toOutcome s

/-- XORB Rbn, Rbm (R266). -/
def execXorbRR (rn : Gpr) (rm : Gpr) (s : State) : Result :=
  (aluRR byteW aluXor rn rm).toOutcome s

/-- XORB Rbn, [Rwi] (R266). -/
def execXorbRI (rn : Gpr) (ri : BitVec 2) (s : State) : Result :=
  (aluRI byteW aluXor rn ri).toOutcome s

/-- XORB Rbn, [Rwi+] (R266). -/
def execXorbRIP (rn : Gpr) (ri : BitVec 2) (s : State) : Result :=
  (aluRIP byteW aluXor rn ri).toOutcome s

/-- XORB Rbn, #data3 (R266). -/
def execXorbR3 (rn : Gpr) (d : BitVec 3) (s : State) : Result :=
  (aluR3 byteW aluXor rn d).toOutcome s

/-- XORB reg, #data8 (R266). -/
def execXorbRegImm (reg : Byte) (d : Byte) (s : State) : Result :=
  (aluRegImm byteW aluXor .none reg d).toOutcome s

/-- XORB reg, mem (R266). -/
def execXorbRegMem (reg : Byte) (mem : Word) (s : State) : Result :=
  (aluRegMem byteW aluXor .none reg mem).toOutcome s

/-- XORB mem, reg (R266). -/
def execXorbMemReg (mem : Word) (reg : Byte) (s : State) : Result :=
  (aluMemReg byteW aluXor .none mem reg).toOutcome s

/-- AND Rwn, Rwm (R261). -/
def execAndRR (rn : Gpr) (rm : Gpr) (s : State) : Result :=
  (aluRR wordW aluAnd rn rm).toOutcome s

/-- AND Rwn, [Rwi] (R261). -/
def execAndRI (rn : Gpr) (ri : BitVec 2) (s : State) : Result :=
  (aluRI wordW aluAnd rn ri).toOutcome s

/-- AND Rwn, [Rwi+] (R261). -/
def execAndRIP (rn : Gpr) (ri : BitVec 2) (s : State) : Result :=
  (aluRIP wordW aluAnd rn ri).toOutcome s

/-- AND Rwn, #data3 (R261). -/
def execAndR3 (rn : Gpr) (d : BitVec 3) (s : State) : Result :=
  (aluR3 wordW aluAnd rn d).toOutcome s

/-- AND reg, #data16 (R261). -/
def execAndRegImm (reg : Byte) (d : Word) (s : State) : Result :=
  (aluRegImm wordW aluAnd .none reg d).toOutcome s

/-- AND reg, mem (R261). -/
def execAndRegMem (reg : Byte) (mem : Word) (s : State) : Result :=
  (aluRegMem wordW aluAnd .none reg mem).toOutcome s

/-- AND mem, reg (R261). -/
def execAndMemReg (mem : Word) (reg : Byte) (s : State) : Result :=
  (aluMemReg wordW aluAnd .none mem reg).toOutcome s

/-- ANDB Rbn, Rbm (R262). -/
def execAndbRR (rn : Gpr) (rm : Gpr) (s : State) : Result :=
  (aluRR byteW aluAnd rn rm).toOutcome s

/-- ANDB Rbn, [Rwi] (R262). -/
def execAndbRI (rn : Gpr) (ri : BitVec 2) (s : State) : Result :=
  (aluRI byteW aluAnd rn ri).toOutcome s

/-- ANDB Rbn, [Rwi+] (R262). -/
def execAndbRIP (rn : Gpr) (ri : BitVec 2) (s : State) : Result :=
  (aluRIP byteW aluAnd rn ri).toOutcome s

/-- ANDB Rbn, #data3 (R262). -/
def execAndbR3 (rn : Gpr) (d : BitVec 3) (s : State) : Result :=
  (aluR3 byteW aluAnd rn d).toOutcome s

/-- ANDB reg, #data8 (R262). -/
def execAndbRegImm (reg : Byte) (d : Byte) (s : State) : Result :=
  (aluRegImm byteW aluAnd .none reg d).toOutcome s

/-- ANDB reg, mem (R262). -/
def execAndbRegMem (reg : Byte) (mem : Word) (s : State) : Result :=
  (aluRegMem byteW aluAnd .none reg mem).toOutcome s

/-- ANDB mem, reg (R262). -/
def execAndbMemReg (mem : Word) (reg : Byte) (s : State) : Result :=
  (aluMemReg byteW aluAnd .none mem reg).toOutcome s

/-- OR Rwn, Rwm (R263). -/
def execOrRR (rn : Gpr) (rm : Gpr) (s : State) : Result :=
  (aluRR wordW aluOr rn rm).toOutcome s

/-- OR Rwn, [Rwi] (R263). -/
def execOrRI (rn : Gpr) (ri : BitVec 2) (s : State) : Result :=
  (aluRI wordW aluOr rn ri).toOutcome s

/-- OR Rwn, [Rwi+] (R263). -/
def execOrRIP (rn : Gpr) (ri : BitVec 2) (s : State) : Result :=
  (aluRIP wordW aluOr rn ri).toOutcome s

/-- OR Rwn, #data3 (R263). -/
def execOrR3 (rn : Gpr) (d : BitVec 3) (s : State) : Result :=
  (aluR3 wordW aluOr rn d).toOutcome s

/-- OR reg, #data16 (R263). -/
def execOrRegImm (reg : Byte) (d : Word) (s : State) : Result :=
  (aluRegImm wordW aluOr .none reg d).toOutcome s

/-- OR reg, mem (R263). -/
def execOrRegMem (reg : Byte) (mem : Word) (s : State) : Result :=
  (aluRegMem wordW aluOr .none reg mem).toOutcome s

/-- OR mem, reg (R263). -/
def execOrMemReg (mem : Word) (reg : Byte) (s : State) : Result :=
  (aluMemReg wordW aluOr .none mem reg).toOutcome s

/-- ORB Rbn, Rbm (R264). -/
def execOrbRR (rn : Gpr) (rm : Gpr) (s : State) : Result :=
  (aluRR byteW aluOr rn rm).toOutcome s

/-- ORB Rbn, [Rwi] (R264). -/
def execOrbRI (rn : Gpr) (ri : BitVec 2) (s : State) : Result :=
  (aluRI byteW aluOr rn ri).toOutcome s

/-- ORB Rbn, [Rwi+] (R264). -/
def execOrbRIP (rn : Gpr) (ri : BitVec 2) (s : State) : Result :=
  (aluRIP byteW aluOr rn ri).toOutcome s

/-- ORB Rbn, #data3 (R264). -/
def execOrbR3 (rn : Gpr) (d : BitVec 3) (s : State) : Result :=
  (aluR3 byteW aluOr rn d).toOutcome s

/-- ORB reg, #data8 (R264). -/
def execOrbRegImm (reg : Byte) (d : Byte) (s : State) : Result :=
  (aluRegImm byteW aluOr .none reg d).toOutcome s

/-- ORB reg, mem (R264). -/
def execOrbRegMem (reg : Byte) (mem : Word) (s : State) : Result :=
  (aluRegMem byteW aluOr .none reg mem).toOutcome s

/-- ORB mem, reg (R264). -/
def execOrbMemReg (mem : Word) (reg : Byte) (s : State) : Result :=
  (aluMemReg byteW aluOr .none mem reg).toOutcome s

end Sys2Proof.Machine
end

