-- ==== Sys2Proof/Machine/Move.lean ====
section
/-! DEFINITION. Data movement (45_data_movement.md): one meaning for each instruction and operand form. -/
namespace Sys2Proof.Machine

/-- MOV Rwn, Rwm (R351). -/
def execMovRR (rn : Gpr) (rm : Gpr) (s : State) : Result :=
  (movPlain (wordW.readGpr rm) (wordW.writeGpr rn) 2).toOutcome s

/-- MOV Rwn, #data4 (R351). -/
def execMovR4 (rn : Gpr) (d : BitVec 4) (s : State) : Result :=
  (movPlain (pure (d.setWidth 16)) (wordW.writeGpr rn) 2).toOutcome s

/-- MOV reg, #data16 (R351). -/
def execMovRegImm (reg : Byte) (d : Word) (s : State) : Result :=
  (movPlain (pure d) (wordW.writeReg reg) 4).toOutcome s

/-- MOV Rwn, [Rwm] (R351). -/
def execMovRI (rn : Gpr) (rm : Gpr) (s : State) : Result :=
  (movPlain (readIndirect wordW rm) (wordW.writeGpr rn) 2).toOutcome s

/-- MOV Rwn, [Rwm+] (R351). -/
def execMovRIP (rn : Gpr) (rm : Gpr) (s : State) : Result :=
  (movRIP wordW rn rm).toOutcome s

/-- MOV [Rwm], Rwn (R351). -/
def execMovIR (rm : Gpr) (rn : Gpr) (s : State) : Result :=
  (movPlain (wordW.readGpr rn) (writeIndirect wordW rm) 2).toOutcome s

/-- MOV [-Rwm], Rwn (R351). -/
def execMovDR (rm : Gpr) (rn : Gpr) (s : State) : Result :=
  (movDR wordW rm rn).toOutcome s

/-- MOV [Rwn], [Rwm] (R351). -/
def execMovII (rn : Gpr) (rm : Gpr) (s : State) : Result :=
  (movPlain (readIndirect wordW rm) (writeIndirect wordW rn) 2).toOutcome s

/-- MOV [Rwn+], [Rwm] (R351). -/
def execMovIPI (rn : Gpr) (rm : Gpr) (s : State) : Result :=
  (movIPI wordW rn rm).toOutcome s

/-- MOV [Rwn], [Rwm+] (R351). -/
def execMovIIP (rn : Gpr) (rm : Gpr) (s : State) : Result :=
  (movPlain (readPostInc wordW rm) (writeIndirect wordW rn) 2).toOutcome s

/-- MOV Rwn, [Rwm+#data16] (R351). -/
def execMovRX (rn : Gpr) (rm : Gpr) (d : Word) (s : State) : Result :=
  (movRX wordW rn rm d).toOutcome s

/-- MOV [Rwm+#data16], Rwn (R351). -/
def execMovXR (rm : Gpr) (d : Word) (rn : Gpr) (s : State) : Result :=
  (movXR wordW rm d rn).toOutcome s

/-- MOV [Rwn], mem (R351). -/
def execMovIMem (rn : Gpr) (mem : Word) (s : State) : Result :=
  (movPlain (wordW.readMem mem) (writeIndirect wordW rn) 4).toOutcome s

/-- MOV mem, [Rwn] (R351). -/
def execMovMemI (mem : Word) (rn : Gpr) (s : State) : Result :=
  (movPlain (readIndirect wordW rn) (wordW.writeMem mem) 4).toOutcome s

/-- MOV reg, mem (R351). -/
def execMovRegMem (reg : Byte) (mem : Word) (s : State) : Result :=
  (movPlain (wordW.readMem mem) (wordW.writeReg reg) 4).toOutcome s

/-- MOV mem, reg (R351). -/
def execMovMemReg (mem : Word) (reg : Byte) (s : State) : Result :=
  (movPlain (wordW.readReg reg) (wordW.writeMem mem) 4).toOutcome s

/-- MOVB Rbn, Rbm (R352). -/
def execMovbRR (rn : Gpr) (rm : Gpr) (s : State) : Result :=
  (movPlain (byteW.readGpr rm) (byteW.writeGpr rn) 2).toOutcome s

/-- MOVB Rbn, #data4 (R352). -/
def execMovbR4 (rn : Gpr) (d : BitVec 4) (s : State) : Result :=
  (movPlain (pure (d.setWidth 8)) (byteW.writeGpr rn) 2).toOutcome s

/-- MOVB reg, #data8 (R352). -/
def execMovbRegImm (reg : Byte) (d : Byte) (s : State) : Result :=
  (movPlain (pure d) (byteW.writeReg reg) 4).toOutcome s

/-- MOVB Rbn, [Rwm] (R352). -/
def execMovbRI (rn : Gpr) (rm : Gpr) (s : State) : Result :=
  (movPlain (readIndirect byteW rm) (byteW.writeGpr rn) 2).toOutcome s

/-- MOVB Rbn, [Rwm+] (R352). -/
def execMovbRIP (rn : Gpr) (rm : Gpr) (s : State) : Result :=
  (movRIP byteW rn rm).toOutcome s

/-- MOVB [Rwm], Rbn (R352). -/
def execMovbIR (rm : Gpr) (rn : Gpr) (s : State) : Result :=
  (movPlain (byteW.readGpr rn) (writeIndirect byteW rm) 2).toOutcome s

/-- MOVB [-Rwm], Rbn (R352). -/
def execMovbDR (rm : Gpr) (rn : Gpr) (s : State) : Result :=
  (movDR byteW rm rn).toOutcome s

/-- MOVB [Rwn], [Rwm] (R352). -/
def execMovbII (rn : Gpr) (rm : Gpr) (s : State) : Result :=
  (movPlain (readIndirect byteW rm) (writeIndirect byteW rn) 2).toOutcome s

/-- MOVB [Rwn+], [Rwm] (R352). -/
def execMovbIPI (rn : Gpr) (rm : Gpr) (s : State) : Result :=
  (movIPI byteW rn rm).toOutcome s

/-- MOVB [Rwn], [Rwm+] (R352). -/
def execMovbIIP (rn : Gpr) (rm : Gpr) (s : State) : Result :=
  (movPlain (readPostInc byteW rm) (writeIndirect byteW rn) 2).toOutcome s

/-- MOVB Rbn, [Rwm+#data16] (R352). -/
def execMovbRX (rn : Gpr) (rm : Gpr) (d : Word) (s : State) : Result :=
  (movRX byteW rn rm d).toOutcome s

/-- MOVB [Rwm+#data16], Rbn (R352). -/
def execMovbXR (rm : Gpr) (d : Word) (rn : Gpr) (s : State) : Result :=
  (movXR byteW rm d rn).toOutcome s

/-- MOVB [Rwn], mem (R352). -/
def execMovbIMem (rn : Gpr) (mem : Word) (s : State) : Result :=
  (movPlain (byteW.readMem mem) (writeIndirect byteW rn) 4).toOutcome s

/-- MOVB mem, [Rwn] (R352). -/
def execMovbMemI (mem : Word) (rn : Gpr) (s : State) : Result :=
  (movPlain (readIndirect byteW rn) (byteW.writeMem mem) 4).toOutcome s

/-- MOVB reg, mem (R352). -/
def execMovbRegMem (reg : Byte) (mem : Word) (s : State) : Result :=
  (movPlain (byteW.readMem mem) (byteW.writeReg reg) 4).toOutcome s

/-- MOVB mem, reg (R352). -/
def execMovbMemReg (mem : Word) (reg : Byte) (s : State) : Result :=
  (movPlain (byteW.readReg reg) (byteW.writeMem mem) 4).toOutcome s

/-- MOVBS Rwn, Rbm (R353). -/
def execMovbsRR (rn : Gpr) (rm : Gpr) (s : State) : Result :=
  (moveExtend true (readGprB rm) (writeGpr rn) 2).toOutcome s

/-- MOVBS reg, mem (R353). -/
def execMovbsRegMem (reg : Byte) (mem : Word) (s : State) : Result :=
  (moveExtend true (readMemB mem) (writeReg reg) 4).toOutcome s

/-- MOVBS mem, reg (R353). -/
def execMovbsMemReg (mem : Word) (reg : Byte) (s : State) : Result :=
  (moveExtend true (readRegB reg) (writeMem mem) 4).toOutcome s

/-- MOVBZ Rwn, Rbm (R354). -/
def execMovbzRR (rn : Gpr) (rm : Gpr) (s : State) : Result :=
  (moveExtend false (readGprB rm) (writeGpr rn) 2).toOutcome s

/-- MOVBZ reg, mem (R354). -/
def execMovbzRegMem (reg : Byte) (mem : Word) (s : State) : Result :=
  (moveExtend false (readMemB mem) (writeReg reg) 4).toOutcome s

/-- MOVBZ mem, reg (R354). -/
def execMovbzMemReg (mem : Word) (reg : Byte) (s : State) : Result :=
  (moveExtend false (readRegB reg) (writeMem mem) 4).toOutcome s

end Sys2Proof.Machine
end

