-- ==== Sys2Proof/Machine/Shift.lean ====
section
/-! DEFINITION. Shifts, rotates and PRIOR (44_shift_prior.md): one meaning for each instruction and operand form. -/
namespace Sys2Proof.Machine

/-- ROL Rwn, Rwm (R334). -/
def execRolRR (rn : Gpr) (rm : Gpr) (s : State) : Result :=
  (shiftGpr shiftRol rn (shiftCount rm)).toOutcome s

/-- ROL Rwn, #data4 (R334). -/
def execRolR4 (rn : Gpr) (d : BitVec 4) (s : State) : Result :=
  (shiftGpr shiftRol rn (pure d)).toOutcome s

/-- ROR Rwn, Rwm (R333). -/
def execRorRR (rn : Gpr) (rm : Gpr) (s : State) : Result :=
  (shiftGpr shiftRor rn (shiftCount rm)).toOutcome s

/-- ROR Rwn, #data4 (R333). -/
def execRorR4 (rn : Gpr) (d : BitVec 4) (s : State) : Result :=
  (shiftGpr shiftRor rn (pure d)).toOutcome s

/-- SHL Rwn, Rwm (R332). -/
def execShlRR (rn : Gpr) (rm : Gpr) (s : State) : Result :=
  (shiftGpr shiftShl rn (shiftCount rm)).toOutcome s

/-- SHL Rwn, #data4 (R332). -/
def execShlR4 (rn : Gpr) (d : BitVec 4) (s : State) : Result :=
  (shiftGpr shiftShl rn (pure d)).toOutcome s

/-- SHR Rwn, Rwm (R331). -/
def execShrRR (rn : Gpr) (rm : Gpr) (s : State) : Result :=
  (shiftGpr shiftShr rn (shiftCount rm)).toOutcome s

/-- SHR Rwn, #data4 (R331). -/
def execShrR4 (rn : Gpr) (d : BitVec 4) (s : State) : Result :=
  (shiftGpr shiftShr rn (pure d)).toOutcome s

/-- ASHR Rwn, Rwm (R335). -/
def execAshrRR (rn : Gpr) (rm : Gpr) (s : State) : Result :=
  (shiftGpr shiftAshr rn (shiftCount rm)).toOutcome s

/-- ASHR Rwn, #data4 (R335). -/
def execAshrR4 (rn : Gpr) (d : BitVec 4) (s : State) : Result :=
  (shiftGpr shiftAshr rn (pure d)).toOutcome s

/-- PRIOR Rwn, Rwm (R336). -/
def execPrior (rn : Gpr) (rm : Gpr) (s : State) : Result :=
  (do
    let b ← readGpr rm
    setFlags (priorOf b).2
    writeGpr rn (priorOf b).1
    next 2 : Act Unit).toOutcome s

end Sys2Proof.Machine
end

