-- ==== Sys2Proof/Machine/Stack.lean ====
section
/-! DEFINITION. System stack (46_stack.md): one meaning for each instruction and operand form. -/
namespace Sys2Proof.Machine

/-- PUSH reg (R392). -/
def execPush (reg : Byte) (s : State) : Result :=
  (do
    let v ← readReg reg
    push v
    setMoveFlags v
    next 2 : Act Unit).toOutcome s

/-- POP reg (R393). -/
def execPop (reg : Byte) (s : State) : Result :=
  (do
    let v ← pop
    setMoveFlags v
    writeReg reg v
    next 2 : Act Unit).toOutcome s

/-- SCXT reg, #data16 (R394). -/
def execScxtRegImm (reg : Byte) (d : Word) (s : State) : Result :=
  (do
    let old ← readReg reg
    push old
    writeReg reg d
    next 4 : Act Unit).toOutcome s

/-- SCXT reg, mem (R394). With an odd address it raises ILLOPA and is not executed (log 26). -/
def execScxtRegMem (reg : Byte) (mem : Word) (s : State) : Result :=
  (do
    if ← look (fun s => decide ((s.dataAddr mem).toNat % 2 = 1)) then
      raiseTrap tfrIllopa
      next 4
    else
      let old ← readReg reg
      let v ← readMem mem
      push old
      writeReg reg v
      next 4 : Act Unit).toOutcome s

end Sys2Proof.Machine
end

