-- ==== Sys2Proof/Machine/Control.lean ====
section
/-! DEFINITION. The operations behind the protected instructions (49_system.md R450 to R456). -/
namespace Sys2Proof.Machine

/-- SRST (R451): a reset is requested; it is made at the next instruction boundary (60_exceptions.md R501). -/
def softwareReset : Act Unit := change (fun s => { s with sys := { s.sys with resetReq := some .software } })

/-- IDLE (R452). External accesses wait for READY in this model, so every one has been completed. Whether it is part of
a locked sequence is kept for the way out (f). -/
def enterIdle : Act Unit := do
  next 4
  change (fun s => { s with sys := { s.sys with cpu := .idle, idleLocked := s.sys.ext.count != 0 } })

/-- PWRDN (R453): without effect while pin NMI is high. -/
def enterPowerDown : Act Unit := do
  next 4
  change (fun s => if s.env.nmi then s else { s with sys := { s.sys with cpu := .powerDown } })

/-- SRVWDT (R454): WDT is reloaded, WDTR cleared, the prescaler restarted (92_eei_decisions.md D17), the DISWDT window
closed. -/
def serviceWatchdog : Act Unit := do
  change (fun s =>
    let s := s.setReg Sfr.wdt (s.reg Sfr.wdtcon &&& 0xFF00)
    let s := s.setRegBit Sfr.wdtcon 1 false
    { s with sys := { s.sys with wdtPre := 0, diswdtOpen := false } })
  next 4

/-- DISWDT (R455): only inside the window between reset and the first EINIT or SRVWDT. -/
def disableWatchdog : Act Unit := do
  change (fun s => { s with sys := { s.sys with wdtDisabled := s.sys.wdtDisabled || s.sys.diswdtOpen } })
  next 4

/-- EINIT (R456): SYSCON is frozen, the DISWDT window closed, RSTOUT goes high. -/
def endOfInit : Act Unit := do
  change (fun s => { s with sys := { s.sys with einitDone := true, diswdtOpen := false, rstout := true } })
  next 4

end Sys2Proof.Machine
end

