-- ==== Sys2Proof/Machine/System.lean ====
section
/-! DEFINITION. System control, NOP and locked sequences (49_system.md): one meaning for each instruction and operand form. -/
namespace Sys2Proof.Machine

/-- SRST (R451). -/
def execSrst (s : State) : Result :=
  (softwareReset).toOutcome s

/-- IDLE (R452). -/
def execIdle (s : State) : Result :=
  (enterIdle).toOutcome s

/-- PWRDN (R453). -/
def execPwrdn (s : State) : Result :=
  (enterPowerDown).toOutcome s

/-- SRVWDT (R454). -/
def execSrvwdt (s : State) : Result :=
  (serviceWatchdog).toOutcome s

/-- DISWDT (R455). -/
def execDiswdt (s : State) : Result :=
  (disableWatchdog).toOutcome s

/-- EINIT (R456). -/
def execEinit (s : State) : Result :=
  (endOfInit).toOutcome s

/-- NOP (R457). -/
def execNop (s : State) : Result :=
  (next 2).toOutcome s

/-- ATOMIC #irang2 (R461). -/
def execAtomic (irang : Nat) (s : State) : Result :=
  (extend irang false (pure .none) 2).toOutcome s

/-- EXTR #irang2 (R462). -/
def execExtr (irang : Nat) (s : State) : Result :=
  (extend irang true (pure .none) 2).toOutcome s

/-- EXTP Rwm, #irang2 (R463). -/
def execExtpR (rm : Gpr) (irang : Nat) (s : State) : Result :=
  (extend irang false (pageOf rm) 2).toOutcome s

/-- EXTP #pag10, #irang2 (R463). -/
def execExtpImm (pag : BitVec 10) (irang : Nat) (s : State) : Result :=
  (extend irang false (pure (.page pag)) 4).toOutcome s

/-- EXTPR Rwm, #irang2 (R464). -/
def execExtprR (rm : Gpr) (irang : Nat) (s : State) : Result :=
  (extend irang true (pageOf rm) 2).toOutcome s

/-- EXTPR #pag10, #irang2 (R464). -/
def execExtprImm (pag : BitVec 10) (irang : Nat) (s : State) : Result :=
  (extend irang true (pure (.page pag)) 4).toOutcome s

/-- EXTS Rwm, #irang2 (R465). -/
def execExtsR (rm : Gpr) (irang : Nat) (s : State) : Result :=
  (extend irang false (segOf rm) 2).toOutcome s

/-- EXTS #seg8, #irang2 (R465). -/
def execExtsImm (seg : Byte) (irang : Nat) (s : State) : Result :=
  (extend irang false (pure (.seg seg)) 4).toOutcome s

/-- EXTSR Rwm, #irang2 (R466). -/
def execExtsrR (rm : Gpr) (irang : Nat) (s : State) : Result :=
  (extend irang true (segOf rm) 2).toOutcome s

/-- EXTSR #seg8, #irang2 (R466). -/
def execExtsrImm (seg : Byte) (irang : Nat) (s : State) : Result :=
  (extend irang true (pure (.seg seg)) 4).toOutcome s

end Sys2Proof.Machine
end

