-- ==== Sys2Proof/Machine/Dispatch.lean ====
section
/-! DEFINITION. The meaning of every instruction. -/
namespace Sys2Proof.Machine

def exec (i : Instr) (s : State) : Host.Outcome State Fault Refusal :=
  match i with
  | .addRR rn rm => Sys2Proof.Machine.execAddRR rn rm s
  | .addRI rn ri => Sys2Proof.Machine.execAddRI rn ri s
  | .addRIP rn ri => Sys2Proof.Machine.execAddRIP rn ri s
  | .addR3 rn d => Sys2Proof.Machine.execAddR3 rn d s
  | .addRegImm reg d => Sys2Proof.Machine.execAddRegImm reg d s
  | .addRegMem reg mem => Sys2Proof.Machine.execAddRegMem reg mem s
  | .addMemReg mem reg => Sys2Proof.Machine.execAddMemReg mem reg s
  | .addbRR rn rm => Sys2Proof.Machine.execAddbRR rn rm s
  | .addbRI rn ri => Sys2Proof.Machine.execAddbRI rn ri s
  | .addbRIP rn ri => Sys2Proof.Machine.execAddbRIP rn ri s
  | .addbR3 rn d => Sys2Proof.Machine.execAddbR3 rn d s
  | .addbRegImm reg d => Sys2Proof.Machine.execAddbRegImm reg d s
  | .addbRegMem reg mem => Sys2Proof.Machine.execAddbRegMem reg mem s
  | .addbMemReg mem reg => Sys2Proof.Machine.execAddbMemReg mem reg s
  | .addcRR rn rm => Sys2Proof.Machine.execAddcRR rn rm s
  | .addcRI rn ri => Sys2Proof.Machine.execAddcRI rn ri s
  | .addcRIP rn ri => Sys2Proof.Machine.execAddcRIP rn ri s
  | .addcR3 rn d => Sys2Proof.Machine.execAddcR3 rn d s
  | .addcRegImm reg d => Sys2Proof.Machine.execAddcRegImm reg d s
  | .addcRegMem reg mem => Sys2Proof.Machine.execAddcRegMem reg mem s
  | .addcMemReg mem reg => Sys2Proof.Machine.execAddcMemReg mem reg s
  | .addcbRR rn rm => Sys2Proof.Machine.execAddcbRR rn rm s
  | .addcbRI rn ri => Sys2Proof.Machine.execAddcbRI rn ri s
  | .addcbRIP rn ri => Sys2Proof.Machine.execAddcbRIP rn ri s
  | .addcbR3 rn d => Sys2Proof.Machine.execAddcbR3 rn d s
  | .addcbRegImm reg d => Sys2Proof.Machine.execAddcbRegImm reg d s
  | .addcbRegMem reg mem => Sys2Proof.Machine.execAddcbRegMem reg mem s
  | .addcbMemReg mem reg => Sys2Proof.Machine.execAddcbMemReg mem reg s
  | .subRR rn rm => Sys2Proof.Machine.execSubRR rn rm s
  | .subRI rn ri => Sys2Proof.Machine.execSubRI rn ri s
  | .subRIP rn ri => Sys2Proof.Machine.execSubRIP rn ri s
  | .subR3 rn d => Sys2Proof.Machine.execSubR3 rn d s
  | .subRegImm reg d => Sys2Proof.Machine.execSubRegImm reg d s
  | .subRegMem reg mem => Sys2Proof.Machine.execSubRegMem reg mem s
  | .subMemReg mem reg => Sys2Proof.Machine.execSubMemReg mem reg s
  | .subbRR rn rm => Sys2Proof.Machine.execSubbRR rn rm s
  | .subbRI rn ri => Sys2Proof.Machine.execSubbRI rn ri s
  | .subbRIP rn ri => Sys2Proof.Machine.execSubbRIP rn ri s
  | .subbR3 rn d => Sys2Proof.Machine.execSubbR3 rn d s
  | .subbRegImm reg d => Sys2Proof.Machine.execSubbRegImm reg d s
  | .subbRegMem reg mem => Sys2Proof.Machine.execSubbRegMem reg mem s
  | .subbMemReg mem reg => Sys2Proof.Machine.execSubbMemReg mem reg s
  | .subcRR rn rm => Sys2Proof.Machine.execSubcRR rn rm s
  | .subcRI rn ri => Sys2Proof.Machine.execSubcRI rn ri s
  | .subcRIP rn ri => Sys2Proof.Machine.execSubcRIP rn ri s
  | .subcR3 rn d => Sys2Proof.Machine.execSubcR3 rn d s
  | .subcRegImm reg d => Sys2Proof.Machine.execSubcRegImm reg d s
  | .subcRegMem reg mem => Sys2Proof.Machine.execSubcRegMem reg mem s
  | .subcMemReg mem reg => Sys2Proof.Machine.execSubcMemReg mem reg s
  | .subcbRR rn rm => Sys2Proof.Machine.execSubcbRR rn rm s
  | .subcbRI rn ri => Sys2Proof.Machine.execSubcbRI rn ri s
  | .subcbRIP rn ri => Sys2Proof.Machine.execSubcbRIP rn ri s
  | .subcbR3 rn d => Sys2Proof.Machine.execSubcbR3 rn d s
  | .subcbRegImm reg d => Sys2Proof.Machine.execSubcbRegImm reg d s
  | .subcbRegMem reg mem => Sys2Proof.Machine.execSubcbRegMem reg mem s
  | .subcbMemReg mem reg => Sys2Proof.Machine.execSubcbMemReg mem reg s
  | .cmpRR rn rm => Sys2Proof.Machine.execCmpRR rn rm s
  | .cmpRI rn ri => Sys2Proof.Machine.execCmpRI rn ri s
  | .cmpRIP rn ri => Sys2Proof.Machine.execCmpRIP rn ri s
  | .cmpR3 rn d => Sys2Proof.Machine.execCmpR3 rn d s
  | .cmpRegImm reg d => Sys2Proof.Machine.execCmpRegImm reg d s
  | .cmpRegMem reg mem => Sys2Proof.Machine.execCmpRegMem reg mem s
  | .cmpbRR rn rm => Sys2Proof.Machine.execCmpbRR rn rm s
  | .cmpbRI rn ri => Sys2Proof.Machine.execCmpbRI rn ri s
  | .cmpbRIP rn ri => Sys2Proof.Machine.execCmpbRIP rn ri s
  | .cmpbR3 rn d => Sys2Proof.Machine.execCmpbR3 rn d s
  | .cmpbRegImm reg d => Sys2Proof.Machine.execCmpbRegImm reg d s
  | .cmpbRegMem reg mem => Sys2Proof.Machine.execCmpbRegMem reg mem s
  | .xorRR rn rm => Sys2Proof.Machine.execXorRR rn rm s
  | .xorRI rn ri => Sys2Proof.Machine.execXorRI rn ri s
  | .xorRIP rn ri => Sys2Proof.Machine.execXorRIP rn ri s
  | .xorR3 rn d => Sys2Proof.Machine.execXorR3 rn d s
  | .xorRegImm reg d => Sys2Proof.Machine.execXorRegImm reg d s
  | .xorRegMem reg mem => Sys2Proof.Machine.execXorRegMem reg mem s
  | .xorMemReg mem reg => Sys2Proof.Machine.execXorMemReg mem reg s
  | .xorbRR rn rm => Sys2Proof.Machine.execXorbRR rn rm s
  | .xorbRI rn ri => Sys2Proof.Machine.execXorbRI rn ri s
  | .xorbRIP rn ri => Sys2Proof.Machine.execXorbRIP rn ri s
  | .xorbR3 rn d => Sys2Proof.Machine.execXorbR3 rn d s
  | .xorbRegImm reg d => Sys2Proof.Machine.execXorbRegImm reg d s
  | .xorbRegMem reg mem => Sys2Proof.Machine.execXorbRegMem reg mem s
  | .xorbMemReg mem reg => Sys2Proof.Machine.execXorbMemReg mem reg s
  | .andRR rn rm => Sys2Proof.Machine.execAndRR rn rm s
  | .andRI rn ri => Sys2Proof.Machine.execAndRI rn ri s
  | .andRIP rn ri => Sys2Proof.Machine.execAndRIP rn ri s
  | .andR3 rn d => Sys2Proof.Machine.execAndR3 rn d s
  | .andRegImm reg d => Sys2Proof.Machine.execAndRegImm reg d s
  | .andRegMem reg mem => Sys2Proof.Machine.execAndRegMem reg mem s
  | .andMemReg mem reg => Sys2Proof.Machine.execAndMemReg mem reg s
  | .andbRR rn rm => Sys2Proof.Machine.execAndbRR rn rm s
  | .andbRI rn ri => Sys2Proof.Machine.execAndbRI rn ri s
  | .andbRIP rn ri => Sys2Proof.Machine.execAndbRIP rn ri s
  | .andbR3 rn d => Sys2Proof.Machine.execAndbR3 rn d s
  | .andbRegImm reg d => Sys2Proof.Machine.execAndbRegImm reg d s
  | .andbRegMem reg mem => Sys2Proof.Machine.execAndbRegMem reg mem s
  | .andbMemReg mem reg => Sys2Proof.Machine.execAndbMemReg mem reg s
  | .orRR rn rm => Sys2Proof.Machine.execOrRR rn rm s
  | .orRI rn ri => Sys2Proof.Machine.execOrRI rn ri s
  | .orRIP rn ri => Sys2Proof.Machine.execOrRIP rn ri s
  | .orR3 rn d => Sys2Proof.Machine.execOrR3 rn d s
  | .orRegImm reg d => Sys2Proof.Machine.execOrRegImm reg d s
  | .orRegMem reg mem => Sys2Proof.Machine.execOrRegMem reg mem s
  | .orMemReg mem reg => Sys2Proof.Machine.execOrMemReg mem reg s
  | .orbRR rn rm => Sys2Proof.Machine.execOrbRR rn rm s
  | .orbRI rn ri => Sys2Proof.Machine.execOrbRI rn ri s
  | .orbRIP rn ri => Sys2Proof.Machine.execOrbRIP rn ri s
  | .orbR3 rn d => Sys2Proof.Machine.execOrbR3 rn d s
  | .orbRegImm reg d => Sys2Proof.Machine.execOrbRegImm reg d s
  | .orbRegMem reg mem => Sys2Proof.Machine.execOrbRegMem reg mem s
  | .orbMemReg mem reg => Sys2Proof.Machine.execOrbMemReg mem reg s
  | .mul rn rm => Sys2Proof.Machine.execMul rn rm s
  | .mulu rn rm => Sys2Proof.Machine.execMulu rn rm s
  | .div rn => Sys2Proof.Machine.execDiv rn s
  | .divu rn => Sys2Proof.Machine.execDivu rn s
  | .divl rn => Sys2Proof.Machine.execDivl rn s
  | .divlu rn => Sys2Proof.Machine.execDivlu rn s
  | .cpl rn => Sys2Proof.Machine.execCpl rn s
  | .cplb rn => Sys2Proof.Machine.execCplb rn s
  | .neg rn => Sys2Proof.Machine.execNeg rn s
  | .negb rn => Sys2Proof.Machine.execNegb rn s
  | .cmpi1R4 rn d => Sys2Proof.Machine.execCmpi1R4 rn d s
  | .cmpi1R16 rn d => Sys2Proof.Machine.execCmpi1R16 rn d s
  | .cmpi1RMem rn mem => Sys2Proof.Machine.execCmpi1RMem rn mem s
  | .cmpi2R4 rn d => Sys2Proof.Machine.execCmpi2R4 rn d s
  | .cmpi2R16 rn d => Sys2Proof.Machine.execCmpi2R16 rn d s
  | .cmpi2RMem rn mem => Sys2Proof.Machine.execCmpi2RMem rn mem s
  | .cmpd1R4 rn d => Sys2Proof.Machine.execCmpd1R4 rn d s
  | .cmpd1R16 rn d => Sys2Proof.Machine.execCmpd1R16 rn d s
  | .cmpd1RMem rn mem => Sys2Proof.Machine.execCmpd1RMem rn mem s
  | .cmpd2R4 rn d => Sys2Proof.Machine.execCmpd2R4 rn d s
  | .cmpd2R16 rn d => Sys2Proof.Machine.execCmpd2R16 rn d s
  | .cmpd2RMem rn mem => Sys2Proof.Machine.execCmpd2RMem rn mem s
  | .bfldl bitoff mask d => Sys2Proof.Machine.execBfldl bitoff mask d s
  | .bfldh bitoff mask d => Sys2Proof.Machine.execBfldh bitoff mask d s
  | .bcmp bitoffZ z bitoffQ q => Sys2Proof.Machine.execBcmp bitoffZ z bitoffQ q s
  | .bmovn bitoffZ z bitoffQ q => Sys2Proof.Machine.execBmovn bitoffZ z bitoffQ q s
  | .bmov bitoffZ z bitoffQ q => Sys2Proof.Machine.execBmov bitoffZ z bitoffQ q s
  | .bor bitoffZ z bitoffQ q => Sys2Proof.Machine.execBor bitoffZ z bitoffQ q s
  | .band bitoffZ z bitoffQ q => Sys2Proof.Machine.execBand bitoffZ z bitoffQ q s
  | .bxor bitoffZ z bitoffQ q => Sys2Proof.Machine.execBxor bitoffZ z bitoffQ q s
  | .bclr bitoff q => Sys2Proof.Machine.execBclr bitoff q s
  | .bset bitoff q => Sys2Proof.Machine.execBset bitoff q s
  | .rolRR rn rm => Sys2Proof.Machine.execRolRR rn rm s
  | .rolR4 rn d => Sys2Proof.Machine.execRolR4 rn d s
  | .rorRR rn rm => Sys2Proof.Machine.execRorRR rn rm s
  | .rorR4 rn d => Sys2Proof.Machine.execRorR4 rn d s
  | .shlRR rn rm => Sys2Proof.Machine.execShlRR rn rm s
  | .shlR4 rn d => Sys2Proof.Machine.execShlR4 rn d s
  | .shrRR rn rm => Sys2Proof.Machine.execShrRR rn rm s
  | .shrR4 rn d => Sys2Proof.Machine.execShrR4 rn d s
  | .ashrRR rn rm => Sys2Proof.Machine.execAshrRR rn rm s
  | .ashrR4 rn d => Sys2Proof.Machine.execAshrR4 rn d s
  | .prior rn rm => Sys2Proof.Machine.execPrior rn rm s
  | .movRR rn rm => Sys2Proof.Machine.execMovRR rn rm s
  | .movR4 rn d => Sys2Proof.Machine.execMovR4 rn d s
  | .movRegImm reg d => Sys2Proof.Machine.execMovRegImm reg d s
  | .movRI rn rm => Sys2Proof.Machine.execMovRI rn rm s
  | .movRIP rn rm => Sys2Proof.Machine.execMovRIP rn rm s
  | .movIR rm rn => Sys2Proof.Machine.execMovIR rm rn s
  | .movDR rm rn => Sys2Proof.Machine.execMovDR rm rn s
  | .movII rn rm => Sys2Proof.Machine.execMovII rn rm s
  | .movIPI rn rm => Sys2Proof.Machine.execMovIPI rn rm s
  | .movIIP rn rm => Sys2Proof.Machine.execMovIIP rn rm s
  | .movRX rn rm d => Sys2Proof.Machine.execMovRX rn rm d s
  | .movXR rm d rn => Sys2Proof.Machine.execMovXR rm d rn s
  | .movIMem rn mem => Sys2Proof.Machine.execMovIMem rn mem s
  | .movMemI mem rn => Sys2Proof.Machine.execMovMemI mem rn s
  | .movRegMem reg mem => Sys2Proof.Machine.execMovRegMem reg mem s
  | .movMemReg mem reg => Sys2Proof.Machine.execMovMemReg mem reg s
  | .movbRR rn rm => Sys2Proof.Machine.execMovbRR rn rm s
  | .movbR4 rn d => Sys2Proof.Machine.execMovbR4 rn d s
  | .movbRegImm reg d => Sys2Proof.Machine.execMovbRegImm reg d s
  | .movbRI rn rm => Sys2Proof.Machine.execMovbRI rn rm s
  | .movbRIP rn rm => Sys2Proof.Machine.execMovbRIP rn rm s
  | .movbIR rm rn => Sys2Proof.Machine.execMovbIR rm rn s
  | .movbDR rm rn => Sys2Proof.Machine.execMovbDR rm rn s
  | .movbII rn rm => Sys2Proof.Machine.execMovbII rn rm s
  | .movbIPI rn rm => Sys2Proof.Machine.execMovbIPI rn rm s
  | .movbIIP rn rm => Sys2Proof.Machine.execMovbIIP rn rm s
  | .movbRX rn rm d => Sys2Proof.Machine.execMovbRX rn rm d s
  | .movbXR rm d rn => Sys2Proof.Machine.execMovbXR rm d rn s
  | .movbIMem rn mem => Sys2Proof.Machine.execMovbIMem rn mem s
  | .movbMemI mem rn => Sys2Proof.Machine.execMovbMemI mem rn s
  | .movbRegMem reg mem => Sys2Proof.Machine.execMovbRegMem reg mem s
  | .movbMemReg mem reg => Sys2Proof.Machine.execMovbMemReg mem reg s
  | .movbsRR rn rm => Sys2Proof.Machine.execMovbsRR rn rm s
  | .movbsRegMem reg mem => Sys2Proof.Machine.execMovbsRegMem reg mem s
  | .movbsMemReg mem reg => Sys2Proof.Machine.execMovbsMemReg mem reg s
  | .movbzRR rn rm => Sys2Proof.Machine.execMovbzRR rn rm s
  | .movbzRegMem reg mem => Sys2Proof.Machine.execMovbzRegMem reg mem s
  | .movbzMemReg mem reg => Sys2Proof.Machine.execMovbzMemReg mem reg s
  | .push reg => Sys2Proof.Machine.execPush reg s
  | .pop reg => Sys2Proof.Machine.execPop reg s
  | .scxtRegImm reg d => Sys2Proof.Machine.execScxtRegImm reg d s
  | .scxtRegMem reg mem => Sys2Proof.Machine.execScxtRegMem reg mem s
  | .jmpa cc caddr => Sys2Proof.Machine.execJmpa cc caddr s
  | .jmpi cc rn => Sys2Proof.Machine.execJmpi cc rn s
  | .jmpr cc rel => Sys2Proof.Machine.execJmpr cc rel s
  | .jmps seg caddr => Sys2Proof.Machine.execJmps seg caddr s
  | .jb bitoff q rel => Sys2Proof.Machine.execJb bitoff q rel s
  | .jnb bitoff q rel => Sys2Proof.Machine.execJnb bitoff q rel s
  | .jbc bitoff q rel => Sys2Proof.Machine.execJbc bitoff q rel s
  | .jnbs bitoff q rel => Sys2Proof.Machine.execJnbs bitoff q rel s
  | .calla cc caddr => Sys2Proof.Machine.execCalla cc caddr s
  | .calli cc rn => Sys2Proof.Machine.execCalli cc rn s
  | .callr rel => Sys2Proof.Machine.execCallr rel s
  | .calls seg caddr => Sys2Proof.Machine.execCalls seg caddr s
  | .pcall reg caddr => Sys2Proof.Machine.execPcall reg caddr s
  | .trap trap7 => Sys2Proof.Machine.execTrap trap7 s
  | .ret => Sys2Proof.Machine.execRet s
  | .rets => Sys2Proof.Machine.execRets s
  | .retp reg => Sys2Proof.Machine.execRetp reg s
  | .reti => Sys2Proof.Machine.execReti s
  | .srst => Sys2Proof.Machine.execSrst s
  | .idle => Sys2Proof.Machine.execIdle s
  | .pwrdn => Sys2Proof.Machine.execPwrdn s
  | .srvwdt => Sys2Proof.Machine.execSrvwdt s
  | .diswdt => Sys2Proof.Machine.execDiswdt s
  | .einit => Sys2Proof.Machine.execEinit s
  | .nop => Sys2Proof.Machine.execNop s
  | .atomic irang => Sys2Proof.Machine.execAtomic irang s
  | .extr irang => Sys2Proof.Machine.execExtr irang s
  | .extpR rm irang => Sys2Proof.Machine.execExtpR rm irang s
  | .extpImm pag irang => Sys2Proof.Machine.execExtpImm pag irang s
  | .extprR rm irang => Sys2Proof.Machine.execExtprR rm irang s
  | .extprImm pag irang => Sys2Proof.Machine.execExtprImm pag irang s
  | .extsR rm irang => Sys2Proof.Machine.execExtsR rm irang s
  | .extsImm seg irang => Sys2Proof.Machine.execExtsImm seg irang s
  | .extsrR rm irang => Sys2Proof.Machine.execExtsrR rm irang s
  | .extsrImm seg irang => Sys2Proof.Machine.execExtsrImm seg irang s

end Sys2Proof.Machine
end

