-- ==== Sys2Proof/WellFormed.lean ====
section
/-! DEFINITION. Well-formed instructions. Every operand is held in exactly the bits its field has, so the one check is
the instruction count of ATOMIC and the EXTend instructions. -/
namespace Sys2Proof

/-- `irang2` is 1 to 4 (49_system.md R460). -/
def irangOk (n : Nat) : Bool := decide (1 ≤ n) && decide (n ≤ 4)

/-- The instruction has an encoding. -/
def Instr.wf : Instr → Bool
  | .addRR _ _ => true
  | .addRI _ _ => true
  | .addRIP _ _ => true
  | .addR3 _ _ => true
  | .addRegImm _ _ => true
  | .addRegMem _ _ => true
  | .addMemReg _ _ => true
  | .addbRR _ _ => true
  | .addbRI _ _ => true
  | .addbRIP _ _ => true
  | .addbR3 _ _ => true
  | .addbRegImm _ _ => true
  | .addbRegMem _ _ => true
  | .addbMemReg _ _ => true
  | .addcRR _ _ => true
  | .addcRI _ _ => true
  | .addcRIP _ _ => true
  | .addcR3 _ _ => true
  | .addcRegImm _ _ => true
  | .addcRegMem _ _ => true
  | .addcMemReg _ _ => true
  | .addcbRR _ _ => true
  | .addcbRI _ _ => true
  | .addcbRIP _ _ => true
  | .addcbR3 _ _ => true
  | .addcbRegImm _ _ => true
  | .addcbRegMem _ _ => true
  | .addcbMemReg _ _ => true
  | .subRR _ _ => true
  | .subRI _ _ => true
  | .subRIP _ _ => true
  | .subR3 _ _ => true
  | .subRegImm _ _ => true
  | .subRegMem _ _ => true
  | .subMemReg _ _ => true
  | .subbRR _ _ => true
  | .subbRI _ _ => true
  | .subbRIP _ _ => true
  | .subbR3 _ _ => true
  | .subbRegImm _ _ => true
  | .subbRegMem _ _ => true
  | .subbMemReg _ _ => true
  | .subcRR _ _ => true
  | .subcRI _ _ => true
  | .subcRIP _ _ => true
  | .subcR3 _ _ => true
  | .subcRegImm _ _ => true
  | .subcRegMem _ _ => true
  | .subcMemReg _ _ => true
  | .subcbRR _ _ => true
  | .subcbRI _ _ => true
  | .subcbRIP _ _ => true
  | .subcbR3 _ _ => true
  | .subcbRegImm _ _ => true
  | .subcbRegMem _ _ => true
  | .subcbMemReg _ _ => true
  | .cmpRR _ _ => true
  | .cmpRI _ _ => true
  | .cmpRIP _ _ => true
  | .cmpR3 _ _ => true
  | .cmpRegImm _ _ => true
  | .cmpRegMem _ _ => true
  | .cmpbRR _ _ => true
  | .cmpbRI _ _ => true
  | .cmpbRIP _ _ => true
  | .cmpbR3 _ _ => true
  | .cmpbRegImm _ _ => true
  | .cmpbRegMem _ _ => true
  | .xorRR _ _ => true
  | .xorRI _ _ => true
  | .xorRIP _ _ => true
  | .xorR3 _ _ => true
  | .xorRegImm _ _ => true
  | .xorRegMem _ _ => true
  | .xorMemReg _ _ => true
  | .xorbRR _ _ => true
  | .xorbRI _ _ => true
  | .xorbRIP _ _ => true
  | .xorbR3 _ _ => true
  | .xorbRegImm _ _ => true
  | .xorbRegMem _ _ => true
  | .xorbMemReg _ _ => true
  | .andRR _ _ => true
  | .andRI _ _ => true
  | .andRIP _ _ => true
  | .andR3 _ _ => true
  | .andRegImm _ _ => true
  | .andRegMem _ _ => true
  | .andMemReg _ _ => true
  | .andbRR _ _ => true
  | .andbRI _ _ => true
  | .andbRIP _ _ => true
  | .andbR3 _ _ => true
  | .andbRegImm _ _ => true
  | .andbRegMem _ _ => true
  | .andbMemReg _ _ => true
  | .orRR _ _ => true
  | .orRI _ _ => true
  | .orRIP _ _ => true
  | .orR3 _ _ => true
  | .orRegImm _ _ => true
  | .orRegMem _ _ => true
  | .orMemReg _ _ => true
  | .orbRR _ _ => true
  | .orbRI _ _ => true
  | .orbRIP _ _ => true
  | .orbR3 _ _ => true
  | .orbRegImm _ _ => true
  | .orbRegMem _ _ => true
  | .orbMemReg _ _ => true
  | .mul _ _ => true
  | .mulu _ _ => true
  | .div _ => true
  | .divu _ => true
  | .divl _ => true
  | .divlu _ => true
  | .cpl _ => true
  | .cplb _ => true
  | .neg _ => true
  | .negb _ => true
  | .cmpi1R4 _ _ => true
  | .cmpi1R16 _ _ => true
  | .cmpi1RMem _ _ => true
  | .cmpi2R4 _ _ => true
  | .cmpi2R16 _ _ => true
  | .cmpi2RMem _ _ => true
  | .cmpd1R4 _ _ => true
  | .cmpd1R16 _ _ => true
  | .cmpd1RMem _ _ => true
  | .cmpd2R4 _ _ => true
  | .cmpd2R16 _ _ => true
  | .cmpd2RMem _ _ => true
  | .bfldl _ _ _ => true
  | .bfldh _ _ _ => true
  | .bcmp _ _ _ _ => true
  | .bmovn _ _ _ _ => true
  | .bmov _ _ _ _ => true
  | .bor _ _ _ _ => true
  | .band _ _ _ _ => true
  | .bxor _ _ _ _ => true
  | .bclr _ _ => true
  | .bset _ _ => true
  | .rolRR _ _ => true
  | .rolR4 _ _ => true
  | .rorRR _ _ => true
  | .rorR4 _ _ => true
  | .shlRR _ _ => true
  | .shlR4 _ _ => true
  | .shrRR _ _ => true
  | .shrR4 _ _ => true
  | .ashrRR _ _ => true
  | .ashrR4 _ _ => true
  | .prior _ _ => true
  | .movRR _ _ => true
  | .movR4 _ _ => true
  | .movRegImm _ _ => true
  | .movRI _ _ => true
  | .movRIP _ _ => true
  | .movIR _ _ => true
  | .movDR _ _ => true
  | .movII _ _ => true
  | .movIPI _ _ => true
  | .movIIP _ _ => true
  | .movRX _ _ _ => true
  | .movXR _ _ _ => true
  | .movIMem _ _ => true
  | .movMemI _ _ => true
  | .movRegMem _ _ => true
  | .movMemReg _ _ => true
  | .movbRR _ _ => true
  | .movbR4 _ _ => true
  | .movbRegImm _ _ => true
  | .movbRI _ _ => true
  | .movbRIP _ _ => true
  | .movbIR _ _ => true
  | .movbDR _ _ => true
  | .movbII _ _ => true
  | .movbIPI _ _ => true
  | .movbIIP _ _ => true
  | .movbRX _ _ _ => true
  | .movbXR _ _ _ => true
  | .movbIMem _ _ => true
  | .movbMemI _ _ => true
  | .movbRegMem _ _ => true
  | .movbMemReg _ _ => true
  | .movbsRR _ _ => true
  | .movbsRegMem _ _ => true
  | .movbsMemReg _ _ => true
  | .movbzRR _ _ => true
  | .movbzRegMem _ _ => true
  | .movbzMemReg _ _ => true
  | .push _ => true
  | .pop _ => true
  | .scxtRegImm _ _ => true
  | .scxtRegMem _ _ => true
  | .jmpa _ _ => true
  | .jmpi _ _ => true
  | .jmpr _ _ => true
  | .jmps _ _ => true
  | .jb _ _ _ => true
  | .jnb _ _ _ => true
  | .jbc _ _ _ => true
  | .jnbs _ _ _ => true
  | .calla _ _ => true
  | .calli _ _ => true
  | .callr _ => true
  | .calls _ _ => true
  | .pcall _ _ => true
  | .trap _ => true
  | .ret => true
  | .rets => true
  | .retp _ => true
  | .reti => true
  | .srst => true
  | .idle => true
  | .pwrdn => true
  | .srvwdt => true
  | .diswdt => true
  | .einit => true
  | .nop => true
  | .atomic irang => irangOk irang
  | .extr irang => irangOk irang
  | .extpR _ irang => irangOk irang
  | .extpImm _ irang => irangOk irang
  | .extprR _ irang => irangOk irang
  | .extprImm _ irang => irangOk irang
  | .extsR _ irang => irangOk irang
  | .extsImm _ irang => irangOk irang
  | .extsrR _ irang => irangOk irang
  | .extsrImm _ irang => irangOk irang

end Sys2Proof
end

