-- ==== Sys2Proof/Decode.lean ====
section
/-! DEFINITION. Decoding bytes to instructions and encoding instructions to bytes (30_encoding.md R161 to R178, R190).
The decoder is total: bytes that are no instruction are named by what the CPU finds (an undefined opcode, a damaged
protected instruction) or refused as a reserved encoding. -/
namespace Sys2Proof

/-- What the decoder finds. -/
inductive Decoded
  /-- an instruction, and the bytes after it -/
  | instr (i : Instr) (rest : List Byte)
  /-- byte 0 is no opcode: the UNDOPC trap (R177) -/
  | undefinedOpcode
  /-- a protected instruction whose bytes do not repeat its opcode: the PRTFLT trap (R162) -/
  | protectionFault
  /-- reserved bits inside a defined encoding differ from the table (R178) -/
  | reserved
  /-- fewer bytes than the instruction has -/
  | truncated
deriving DecidableEq, Repr

/-- What one opcode byte with its operand bytes stands for. -/
inductive Form
  | ok (i : Instr)
  | undefinedOpcode
  | protectionFault
  | reserved
deriving DecidableEq, Repr

/-- Bits 7-4 of a byte. -/
def hiNib (b : Byte) : BitVec 4 := b.extractLsb' 4 4

/-- Bits 3-0 of a byte. -/
def loNib (b : Byte) : BitVec 4 := b.extractLsb' 0 4

/-- The word of two bytes, low byte first (R164). -/
def wordOf (lo hi : Byte) : Word := hi ++ lo

/-- The condition code of a 4-bit field (R175). -/
def ccOf (n : BitVec 4) : Cc :=
  match n.toNat with
  | 0 => .uc | 1 => .net | 2 => .z | 3 => .nz | 4 => .v | 5 => .nv | 6 => .n | 7 => .nn
  | 8 => .c | 9 => .nc | 10 => .sgt | 11 => .sle | 12 => .slt | 13 => .sge | 14 => .ugt | _ => .ule

/-- The 4-bit field of a condition code (R175). -/
def ccNum : Cc → BitVec 4
  | .uc => 0 | .net => 1 | .z => 2 | .nz => 3 | .v => 4 | .nv => 5 | .n => 6 | .nn => 7
  | .c => 8 | .nc => 9 | .sgt => 10 | .sle => 11 | .slt => 12 | .sge => 13 | .ugt => 14 | .ule => 15

/-- The instruction is 4 bytes long, by its first byte (R161). -/
def isLong (b0 : Byte) : Bool :=
  match (loNib b0).toNat with
  | 2 | 3 | 4 | 5 | 6 | 7 | 10 => true
  | _ => false

/-- An instruction whose fixed bits hold when `c`, a reserved encoding otherwise (R178). -/
def Form.when (c : Bool) (i : Instr) : Form := if c then .ok i else .reserved

/-- A protected instruction: the bytes `op`, not `op`, `op`, `op` (49_system.md R450). -/
def protectedForm (op b1 b2 b3 : Byte) (i : Instr) : Form :=
  if b1 = ~~~op && b2 = op && b3 = op then .ok i else .protectionFault

/-- The opcodes x8h and x9h: byte 1 bits 3-2 select `#data3`, `[Rwi]` or `[Rwi+]` (R176). -/
def shortForm (b1 : Byte) (r3 : Gpr → BitVec 3 → Instr) (ri rip : Gpr → BitVec 2 → Instr) : Form :=
  if b1.extractLsb' 3 1 = 0 then .ok (r3 (hiNib b1) (b1.extractLsb' 0 3))
  else if b1.extractLsb' 2 1 = 0 then .ok (ri (hiNib b1) (b1.extractLsb' 0 2))
  else .ok (rip (hiNib b1) (b1.extractLsb' 0 2))

/-- The count of an EXTend instruction: the field of byte 1 bits 5-4 plus one (49_system.md R460). -/
def irangOf (b1 : Byte) : Nat := (b1.extractLsb' 4 2).toNat + 1

/-- Opcode D1h: ATOMIC and EXTR (R461, R462). -/
def extD1 (b1 : Byte) : Form :=
  if loNib b1 = 0 then
    match (b1.extractLsb' 6 2).toNat with
    | 0 => .ok (.atomic (irangOf b1))
    | 2 => .ok (.extr (irangOf b1))
    | _ => .reserved
  else .reserved

/-- Opcode DCh: the EXTend instructions with a GPR (R463 to R466). -/
def extDC (b1 : Byte) : Form :=
  match (b1.extractLsb' 6 2).toNat with
  | 0 => .ok (.extsR (loNib b1) (irangOf b1))
  | 1 => .ok (.extpR (loNib b1) (irangOf b1))
  | 2 => .ok (.extsrR (loNib b1) (irangOf b1))
  | _ => .ok (.extprR (loNib b1) (irangOf b1))

/-- Opcode D7h: the EXTend instructions with a page or segment number (R463 to R466). -/
def extD7 (b1 b2 b3 : Byte) : Form :=
  if loNib b1 = 0 then
    match (b1.extractLsb' 6 2).toNat with
    | 0 => Form.when (b3 = 0) (.extsImm b2 (irangOf b1))
    | 1 => Form.when (b3.extractLsb' 2 6 = 0) (.extpImm (b3.extractLsb' 0 2 ++ b2) (irangOf b1))
    | 2 => Form.when (b3 = 0) (.extsrImm b2 (irangOf b1))
    | _ => Form.when (b3.extractLsb' 2 6 = 0) (.extprImm (b3.extractLsb' 0 2 ++ b2) (irangOf b1))
  else .reserved

/-- Opcodes 00h..0Fh (R190). -/
def decodeRow0 (lo : Nat) (b1 b2 b3 : Byte) : Form :=
  match lo with
  | 0 => .ok (.addRR (hiNib b1) (loNib b1))
  | 1 => .ok (.addbRR (hiNib b1) (loNib b1))
  | 2 => .ok (.addRegMem b1 (wordOf b2 b3))
  | 3 => .ok (.addbRegMem b1 (wordOf b2 b3))
  | 4 => .ok (.addMemReg (wordOf b2 b3) b1)
  | 5 => .ok (.addbMemReg (wordOf b2 b3) b1)
  | 6 => .ok (.addRegImm b1 (wordOf b2 b3))
  | 7 => .ok (.addbRegImm b1 b2)
  | 8 => shortForm b1 .addR3 .addRI .addRIP
  | 9 => shortForm b1 .addbR3 .addbRI .addbRIP
  | 10 => .ok (.bfldl b1 b2 b3)
  | 11 => .ok (.mul (hiNib b1) (loNib b1))
  | 12 => .ok (.rolRR (hiNib b1) (loNib b1))
  | 13 => .ok (.jmpr .uc b1)
  | 14 => .ok (.bclr b1 0)
  | _ => .ok (.bset b1 0)

/-- Opcodes 10h..1Fh (R190). -/
def decodeRow1 (lo : Nat) (b1 b2 b3 : Byte) : Form :=
  match lo with
  | 0 => .ok (.addcRR (hiNib b1) (loNib b1))
  | 1 => .ok (.addcbRR (hiNib b1) (loNib b1))
  | 2 => .ok (.addcRegMem b1 (wordOf b2 b3))
  | 3 => .ok (.addcbRegMem b1 (wordOf b2 b3))
  | 4 => .ok (.addcMemReg (wordOf b2 b3) b1)
  | 5 => .ok (.addcbMemReg (wordOf b2 b3) b1)
  | 6 => .ok (.addcRegImm b1 (wordOf b2 b3))
  | 7 => .ok (.addcbRegImm b1 b2)
  | 8 => shortForm b1 .addcR3 .addcRI .addcRIP
  | 9 => shortForm b1 .addcbR3 .addcbRI .addcbRIP
  | 10 => .ok (.bfldh b1 b3 b2)
  | 11 => .ok (.mulu (hiNib b1) (loNib b1))
  | 12 => .ok (.rolR4 (loNib b1) (hiNib b1))
  | 13 => .ok (.jmpr .net b1)
  | 14 => .ok (.bclr b1 1)
  | _ => .ok (.bset b1 1)

/-- Opcodes 20h..2Fh (R190). -/
def decodeRow2 (lo : Nat) (b1 b2 b3 : Byte) : Form :=
  match lo with
  | 0 => .ok (.subRR (hiNib b1) (loNib b1))
  | 1 => .ok (.subbRR (hiNib b1) (loNib b1))
  | 2 => .ok (.subRegMem b1 (wordOf b2 b3))
  | 3 => .ok (.subbRegMem b1 (wordOf b2 b3))
  | 4 => .ok (.subMemReg (wordOf b2 b3) b1)
  | 5 => .ok (.subbMemReg (wordOf b2 b3) b1)
  | 6 => .ok (.subRegImm b1 (wordOf b2 b3))
  | 7 => .ok (.subbRegImm b1 b2)
  | 8 => shortForm b1 .subR3 .subRI .subRIP
  | 9 => shortForm b1 .subbR3 .subbRI .subbRIP
  | 10 => .ok (.bcmp b2 (loNib b3) b1 (hiNib b3))
  | 11 => .ok (.prior (hiNib b1) (loNib b1))
  | 12 => .ok (.rorRR (hiNib b1) (loNib b1))
  | 13 => .ok (.jmpr .z b1)
  | 14 => .ok (.bclr b1 2)
  | _ => .ok (.bset b1 2)

/-- Opcodes 30h..3Fh (R190). -/
def decodeRow3 (lo : Nat) (b1 b2 b3 : Byte) : Form :=
  match lo with
  | 0 => .ok (.subcRR (hiNib b1) (loNib b1))
  | 1 => .ok (.subcbRR (hiNib b1) (loNib b1))
  | 2 => .ok (.subcRegMem b1 (wordOf b2 b3))
  | 3 => .ok (.subcbRegMem b1 (wordOf b2 b3))
  | 4 => .ok (.subcMemReg (wordOf b2 b3) b1)
  | 5 => .ok (.subcbMemReg (wordOf b2 b3) b1)
  | 6 => .ok (.subcRegImm b1 (wordOf b2 b3))
  | 7 => .ok (.subcbRegImm b1 b2)
  | 8 => shortForm b1 .subcR3 .subcRI .subcRIP
  | 9 => shortForm b1 .subcbR3 .subcbRI .subcbRIP
  | 10 => .ok (.bmovn b2 (loNib b3) b1 (hiNib b3))
  | 11 => .undefinedOpcode
  | 12 => .ok (.rorR4 (loNib b1) (hiNib b1))
  | 13 => .ok (.jmpr .nz b1)
  | 14 => .ok (.bclr b1 3)
  | _ => .ok (.bset b1 3)

/-- Opcodes 40h..4Fh (R190). -/
def decodeRow4 (lo : Nat) (b1 b2 b3 : Byte) : Form :=
  match lo with
  | 0 => .ok (.cmpRR (hiNib b1) (loNib b1))
  | 1 => .ok (.cmpbRR (hiNib b1) (loNib b1))
  | 2 => .ok (.cmpRegMem b1 (wordOf b2 b3))
  | 3 => .ok (.cmpbRegMem b1 (wordOf b2 b3))
  | 4 => .undefinedOpcode
  | 5 => .undefinedOpcode
  | 6 => .ok (.cmpRegImm b1 (wordOf b2 b3))
  | 7 => .ok (.cmpbRegImm b1 b2)
  | 8 => shortForm b1 .cmpR3 .cmpRI .cmpRIP
  | 9 => shortForm b1 .cmpbR3 .cmpbRI .cmpbRIP
  | 10 => .ok (.bmov b2 (loNib b3) b1 (hiNib b3))
  | 11 => Form.when ((hiNib b1) = (loNib b1)) (.div (hiNib b1))
  | 12 => .ok (.shlRR (hiNib b1) (loNib b1))
  | 13 => .ok (.jmpr .v b1)
  | 14 => .ok (.bclr b1 4)
  | _ => .ok (.bset b1 4)

/-- Opcodes 50h..5Fh (R190). -/
def decodeRow5 (lo : Nat) (b1 b2 b3 : Byte) : Form :=
  match lo with
  | 0 => .ok (.xorRR (hiNib b1) (loNib b1))
  | 1 => .ok (.xorbRR (hiNib b1) (loNib b1))
  | 2 => .ok (.xorRegMem b1 (wordOf b2 b3))
  | 3 => .ok (.xorbRegMem b1 (wordOf b2 b3))
  | 4 => .ok (.xorMemReg (wordOf b2 b3) b1)
  | 5 => .ok (.xorbMemReg (wordOf b2 b3) b1)
  | 6 => .ok (.xorRegImm b1 (wordOf b2 b3))
  | 7 => .ok (.xorbRegImm b1 b2)
  | 8 => shortForm b1 .xorR3 .xorRI .xorRIP
  | 9 => shortForm b1 .xorbR3 .xorbRI .xorbRIP
  | 10 => .ok (.bor b2 (loNib b3) b1 (hiNib b3))
  | 11 => Form.when ((hiNib b1) = (loNib b1)) (.divu (hiNib b1))
  | 12 => .ok (.shlR4 (loNib b1) (hiNib b1))
  | 13 => .ok (.jmpr .nv b1)
  | 14 => .ok (.bclr b1 5)
  | _ => .ok (.bset b1 5)

/-- Opcodes 60h..6Fh (R190). -/
def decodeRow6 (lo : Nat) (b1 b2 b3 : Byte) : Form :=
  match lo with
  | 0 => .ok (.andRR (hiNib b1) (loNib b1))
  | 1 => .ok (.andbRR (hiNib b1) (loNib b1))
  | 2 => .ok (.andRegMem b1 (wordOf b2 b3))
  | 3 => .ok (.andbRegMem b1 (wordOf b2 b3))
  | 4 => .ok (.andMemReg (wordOf b2 b3) b1)
  | 5 => .ok (.andbMemReg (wordOf b2 b3) b1)
  | 6 => .ok (.andRegImm b1 (wordOf b2 b3))
  | 7 => .ok (.andbRegImm b1 b2)
  | 8 => shortForm b1 .andR3 .andRI .andRIP
  | 9 => shortForm b1 .andbR3 .andbRI .andbRIP
  | 10 => .ok (.band b2 (loNib b3) b1 (hiNib b3))
  | 11 => Form.when ((hiNib b1) = (loNib b1)) (.divl (hiNib b1))
  | 12 => .ok (.shrRR (hiNib b1) (loNib b1))
  | 13 => .ok (.jmpr .n b1)
  | 14 => .ok (.bclr b1 6)
  | _ => .ok (.bset b1 6)

/-- Opcodes 70h..7Fh (R190). -/
def decodeRow7 (lo : Nat) (b1 b2 b3 : Byte) : Form :=
  match lo with
  | 0 => .ok (.orRR (hiNib b1) (loNib b1))
  | 1 => .ok (.orbRR (hiNib b1) (loNib b1))
  | 2 => .ok (.orRegMem b1 (wordOf b2 b3))
  | 3 => .ok (.orbRegMem b1 (wordOf b2 b3))
  | 4 => .ok (.orMemReg (wordOf b2 b3) b1)
  | 5 => .ok (.orbMemReg (wordOf b2 b3) b1)
  | 6 => .ok (.orRegImm b1 (wordOf b2 b3))
  | 7 => .ok (.orbRegImm b1 b2)
  | 8 => shortForm b1 .orR3 .orRI .orRIP
  | 9 => shortForm b1 .orbR3 .orbRI .orbRIP
  | 10 => .ok (.bxor b2 (loNib b3) b1 (hiNib b3))
  | 11 => Form.when ((hiNib b1) = (loNib b1)) (.divlu (hiNib b1))
  | 12 => .ok (.shrR4 (loNib b1) (hiNib b1))
  | 13 => .ok (.jmpr .nn b1)
  | 14 => .ok (.bclr b1 7)
  | _ => .ok (.bset b1 7)

/-- Opcodes 80h..8Fh (R190). -/
def decodeRow8 (lo : Nat) (b1 b2 b3 : Byte) : Form :=
  match lo with
  | 0 => .ok (.cmpi1R4 (loNib b1) (hiNib b1))
  | 1 => Form.when ((loNib b1) = 0) (.neg (hiNib b1))
  | 2 => Form.when ((hiNib b1) = 0xF) (.cmpi1RMem (loNib b1) (wordOf b2 b3))
  | 3 => .undefinedOpcode
  | 4 => Form.when ((hiNib b1) = 0) (.movIMem (loNib b1) (wordOf b2 b3))
  | 5 => .undefinedOpcode
  | 6 => Form.when ((hiNib b1) = 0xF) (.cmpi1R16 (loNib b1) (wordOf b2 b3))
  | 7 => protectedForm 0x87#8 b1 b2 b3 .idle
  | 8 => .ok (.movDR (loNib b1) (hiNib b1))
  | 9 => .ok (.movbDR (loNib b1) (hiNib b1))
  | 10 => Form.when ((loNib b3) = 0) (.jb b1 (hiNib b3) b2)
  | 11 => .undefinedOpcode
  | 12 => .undefinedOpcode
  | 13 => .ok (.jmpr .c b1)
  | 14 => .ok (.bclr b1 8)
  | _ => .ok (.bset b1 8)

/-- Opcodes 90h..9Fh (R190). -/
def decodeRow9 (lo : Nat) (b1 b2 b3 : Byte) : Form :=
  match lo with
  | 0 => .ok (.cmpi2R4 (loNib b1) (hiNib b1))
  | 1 => Form.when ((loNib b1) = 0) (.cpl (hiNib b1))
  | 2 => Form.when ((hiNib b1) = 0xF) (.cmpi2RMem (loNib b1) (wordOf b2 b3))
  | 3 => .undefinedOpcode
  | 4 => Form.when ((hiNib b1) = 0) (.movMemI (wordOf b2 b3) (loNib b1))
  | 5 => .undefinedOpcode
  | 6 => Form.when ((hiNib b1) = 0xF) (.cmpi2R16 (loNib b1) (wordOf b2 b3))
  | 7 => protectedForm 0x97#8 b1 b2 b3 .pwrdn
  | 8 => .ok (.movRIP (hiNib b1) (loNib b1))
  | 9 => .ok (.movbRIP (hiNib b1) (loNib b1))
  | 10 => Form.when ((loNib b3) = 0) (.jnb b1 (hiNib b3) b2)
  | 11 => Form.when (b1.extractLsb' 0 1 = 0) (.trap (b1.extractLsb' 1 7))
  | 12 => .ok (.jmpi (ccOf (hiNib b1)) (loNib b1))
  | 13 => .ok (.jmpr .nc b1)
  | 14 => .ok (.bclr b1 9)
  | _ => .ok (.bset b1 9)

/-- Opcodes A0h..AFh (R190). -/
def decodeRowA (lo : Nat) (b1 b2 b3 : Byte) : Form :=
  match lo with
  | 0 => .ok (.cmpd1R4 (loNib b1) (hiNib b1))
  | 1 => Form.when ((loNib b1) = 0) (.negb (hiNib b1))
  | 2 => Form.when ((hiNib b1) = 0xF) (.cmpd1RMem (loNib b1) (wordOf b2 b3))
  | 3 => .undefinedOpcode
  | 4 => Form.when ((hiNib b1) = 0) (.movbIMem (loNib b1) (wordOf b2 b3))
  | 5 => protectedForm 0xA5#8 b1 b2 b3 .diswdt
  | 6 => Form.when ((hiNib b1) = 0xF) (.cmpd1R16 (loNib b1) (wordOf b2 b3))
  | 7 => protectedForm 0xA7#8 b1 b2 b3 .srvwdt
  | 8 => .ok (.movRI (hiNib b1) (loNib b1))
  | 9 => .ok (.movbRI (hiNib b1) (loNib b1))
  | 10 => Form.when ((loNib b3) = 0) (.jbc b1 (hiNib b3) b2)
  | 11 => .ok (.calli (ccOf (hiNib b1)) (loNib b1))
  | 12 => .ok (.ashrRR (hiNib b1) (loNib b1))
  | 13 => .ok (.jmpr .sgt b1)
  | 14 => .ok (.bclr b1 10)
  | _ => .ok (.bset b1 10)

/-- Opcodes B0h..BFh (R190). -/
def decodeRowB (lo : Nat) (b1 b2 b3 : Byte) : Form :=
  match lo with
  | 0 => .ok (.cmpd2R4 (loNib b1) (hiNib b1))
  | 1 => Form.when ((loNib b1) = 0) (.cplb (hiNib b1))
  | 2 => Form.when ((hiNib b1) = 0xF) (.cmpd2RMem (loNib b1) (wordOf b2 b3))
  | 3 => .undefinedOpcode
  | 4 => Form.when ((hiNib b1) = 0) (.movbMemI (wordOf b2 b3) (loNib b1))
  | 5 => protectedForm 0xB5#8 b1 b2 b3 .einit
  | 6 => Form.when ((hiNib b1) = 0xF) (.cmpd2R16 (loNib b1) (wordOf b2 b3))
  | 7 => protectedForm 0xB7#8 b1 b2 b3 .srst
  | 8 => .ok (.movIR (loNib b1) (hiNib b1))
  | 9 => .ok (.movbIR (loNib b1) (hiNib b1))
  | 10 => Form.when ((loNib b3) = 0) (.jnbs b1 (hiNib b3) b2)
  | 11 => .ok (.callr b1)
  | 12 => .ok (.ashrR4 (loNib b1) (hiNib b1))
  | 13 => .ok (.jmpr .sle b1)
  | 14 => .ok (.bclr b1 11)
  | _ => .ok (.bset b1 11)

/-- Opcodes C0h..CFh (R190). -/
def decodeRowC (lo : Nat) (b1 b2 b3 : Byte) : Form :=
  match lo with
  | 0 => .ok (.movbzRR (loNib b1) (hiNib b1))
  | 1 => .undefinedOpcode
  | 2 => .ok (.movbzRegMem b1 (wordOf b2 b3))
  | 3 => .undefinedOpcode
  | 4 => .ok (.movXR (loNib b1) (wordOf b2 b3) (hiNib b1))
  | 5 => .ok (.movbzMemReg (wordOf b2 b3) b1)
  | 6 => .ok (.scxtRegImm b1 (wordOf b2 b3))
  | 7 => .undefinedOpcode
  | 8 => .ok (.movII (hiNib b1) (loNib b1))
  | 9 => .ok (.movbII (hiNib b1) (loNib b1))
  | 10 => Form.when ((loNib b1) = 0) (.calla (ccOf (hiNib b1)) (wordOf b2 b3))
  | 11 => Form.when (b1 = 0x00) (.ret)
  | 12 => Form.when (b1 = 0x00) (.nop)
  | 13 => .ok (.jmpr .slt b1)
  | 14 => .ok (.bclr b1 12)
  | _ => .ok (.bset b1 12)

/-- Opcodes D0h..DFh (R190). -/
def decodeRowD (lo : Nat) (b1 b2 b3 : Byte) : Form :=
  match lo with
  | 0 => .ok (.movbsRR (loNib b1) (hiNib b1))
  | 1 => extD1 b1
  | 2 => .ok (.movbsRegMem b1 (wordOf b2 b3))
  | 3 => .undefinedOpcode
  | 4 => .ok (.movRX (hiNib b1) (loNib b1) (wordOf b2 b3))
  | 5 => .ok (.movbsMemReg (wordOf b2 b3) b1)
  | 6 => .ok (.scxtRegMem b1 (wordOf b2 b3))
  | 7 => extD7 b1 b2 b3
  | 8 => .ok (.movIPI (hiNib b1) (loNib b1))
  | 9 => .ok (.movbIPI (hiNib b1) (loNib b1))
  | 10 => .ok (.calls b1 (wordOf b2 b3))
  | 11 => Form.when (b1 = 0x00) (.rets)
  | 12 => extDC b1
  | 13 => .ok (.jmpr .sge b1)
  | 14 => .ok (.bclr b1 13)
  | _ => .ok (.bset b1 13)

/-- Opcodes E0h..EFh (R190). -/
def decodeRowE (lo : Nat) (b1 b2 b3 : Byte) : Form :=
  match lo with
  | 0 => .ok (.movR4 (loNib b1) (hiNib b1))
  | 1 => .ok (.movbR4 (loNib b1) (hiNib b1))
  | 2 => .ok (.pcall b1 (wordOf b2 b3))
  | 3 => .undefinedOpcode
  | 4 => .ok (.movbXR (loNib b1) (wordOf b2 b3) (hiNib b1))
  | 5 => .undefinedOpcode
  | 6 => .ok (.movRegImm b1 (wordOf b2 b3))
  | 7 => .ok (.movbRegImm b1 b2)
  | 8 => .ok (.movIIP (hiNib b1) (loNib b1))
  | 9 => .ok (.movbIIP (hiNib b1) (loNib b1))
  | 10 => Form.when ((loNib b1) = 0) (.jmpa (ccOf (hiNib b1)) (wordOf b2 b3))
  | 11 => .ok (.retp b1)
  | 12 => .ok (.push b1)
  | 13 => .ok (.jmpr .ugt b1)
  | 14 => .ok (.bclr b1 14)
  | _ => .ok (.bset b1 14)

/-- Opcodes F0h..FFh (R190). -/
def decodeRowF (lo : Nat) (b1 b2 b3 : Byte) : Form :=
  match lo with
  | 0 => .ok (.movRR (hiNib b1) (loNib b1))
  | 1 => .ok (.movbRR (hiNib b1) (loNib b1))
  | 2 => .ok (.movRegMem b1 (wordOf b2 b3))
  | 3 => .ok (.movbRegMem b1 (wordOf b2 b3))
  | 4 => .ok (.movbRX (hiNib b1) (loNib b1) (wordOf b2 b3))
  | 5 => .undefinedOpcode
  | 6 => .ok (.movMemReg (wordOf b2 b3) b1)
  | 7 => .ok (.movbMemReg (wordOf b2 b3) b1)
  | 8 => .undefinedOpcode
  | 9 => .undefinedOpcode
  | 10 => .ok (.jmps b1 (wordOf b2 b3))
  | 11 => Form.when (b1 = 0x88) (.reti)
  | 12 => .ok (.pop b1)
  | 13 => .ok (.jmpr .ule b1)
  | 14 => .ok (.bclr b1 15)
  | _ => .ok (.bset b1 15)

/-- The instruction of opcode byte `b0` with its operand bytes (R176); a 2-byte instruction ignores `b2`, `b3`. -/
def decodeForm (b0 b1 b2 b3 : Byte) : Form :=
  match (hiNib b0).toNat with
  | 0 => decodeRow0 (loNib b0).toNat b1 b2 b3
  | 1 => decodeRow1 (loNib b0).toNat b1 b2 b3
  | 2 => decodeRow2 (loNib b0).toNat b1 b2 b3
  | 3 => decodeRow3 (loNib b0).toNat b1 b2 b3
  | 4 => decodeRow4 (loNib b0).toNat b1 b2 b3
  | 5 => decodeRow5 (loNib b0).toNat b1 b2 b3
  | 6 => decodeRow6 (loNib b0).toNat b1 b2 b3
  | 7 => decodeRow7 (loNib b0).toNat b1 b2 b3
  | 8 => decodeRow8 (loNib b0).toNat b1 b2 b3
  | 9 => decodeRow9 (loNib b0).toNat b1 b2 b3
  | 10 => decodeRowA (loNib b0).toNat b1 b2 b3
  | 11 => decodeRowB (loNib b0).toNat b1 b2 b3
  | 12 => decodeRowC (loNib b0).toNat b1 b2 b3
  | 13 => decodeRowD (loNib b0).toNat b1 b2 b3
  | 14 => decodeRowE (loNib b0).toNat b1 b2 b3
  | _ => decodeRowF (loNib b0).toNat b1 b2 b3

/-- The answer for a form whose bytes have been taken. -/
def Form.decoded (f : Form) (rest : List Byte) : Decoded :=
  match f with
  | .ok i => .instr i rest
  | .undefinedOpcode => .undefinedOpcode
  | .protectionFault => .protectionFault
  | .reserved => .reserved

/-- Decoding the bytes at an instruction address, in ascending order. -/
def decode : List Byte → Decoded
  | b0 :: b1 :: rest =>
    if isLong b0 then
      match rest with
      | b2 :: b3 :: rest' => (decodeForm b0 b1 b2 b3).decoded rest'
      | _ => .truncated
    else (decodeForm b0 b1 0 0).decoded rest
  | _ => .truncated

/-- The bytes of an instruction given as a number, bit 0 the least significant bit of the first byte. -/
def bytesOfNat : Nat → Nat → List Byte
  | 0, _ => []
  | n + 1, w => BitVec.ofNat 8 w :: bytesOfNat n (w / 256)

/-- The instruction the decoder reads from the bits `w` of an opcode-table row of `nbits` bits. -/
def decodeTableWord (nbits w : Nat) : Option Instr :=
  match decode (bytesOfNat 4 (w % 2 ^ nbits)) with
  | .instr i _ => some i
  | _ => none

/-- Byte 0 and byte 1 of a 2-byte instruction. -/
def enc2 (b0 b1 : Byte) : List Byte := [b0, b1]

/-- A 4-byte instruction with a word in bytes 2 and 3, low byte first (R164). -/
def enc4 (b0 b1 : Byte) (w : Word) : List Byte := [b0, b1, w.extractLsb' 0 8, w.extractLsb' 8 8]

/-- The 2-bit field of an instruction count (49_system.md R460). -/
def irangField (n : Nat) : BitVec 2 := BitVec.ofNat 2 (n - 1)

/-- The bytes of an instruction, in ascending address order (R190). Ignored bits are 0 (R174). -/
def encode : Instr → List Byte
  | .addRR rn rm => enc2 0x00#8 (rn ++ rm)
  | .addRI rn ri => enc2 0x08#8 (rn ++ (0b10#2 ++ ri))
  | .addRIP rn ri => enc2 0x08#8 (rn ++ (0b11#2 ++ ri))
  | .addR3 rn d => enc2 0x08#8 (rn ++ (0b0#1 ++ d))
  | .addRegImm reg d => enc4 0x06#8 reg d
  | .addRegMem reg mem => enc4 0x02#8 reg mem
  | .addMemReg mem reg => enc4 0x04#8 reg mem
  | .addbRR rn rm => enc2 0x01#8 (rn ++ rm)
  | .addbRI rn ri => enc2 0x09#8 (rn ++ (0b10#2 ++ ri))
  | .addbRIP rn ri => enc2 0x09#8 (rn ++ (0b11#2 ++ ri))
  | .addbR3 rn d => enc2 0x09#8 (rn ++ (0b0#1 ++ d))
  | .addbRegImm reg d => [0x07#8, reg, d, 0x00#8]
  | .addbRegMem reg mem => enc4 0x03#8 reg mem
  | .addbMemReg mem reg => enc4 0x05#8 reg mem
  | .addcRR rn rm => enc2 0x10#8 (rn ++ rm)
  | .addcRI rn ri => enc2 0x18#8 (rn ++ (0b10#2 ++ ri))
  | .addcRIP rn ri => enc2 0x18#8 (rn ++ (0b11#2 ++ ri))
  | .addcR3 rn d => enc2 0x18#8 (rn ++ (0b0#1 ++ d))
  | .addcRegImm reg d => enc4 0x16#8 reg d
  | .addcRegMem reg mem => enc4 0x12#8 reg mem
  | .addcMemReg mem reg => enc4 0x14#8 reg mem
  | .addcbRR rn rm => enc2 0x11#8 (rn ++ rm)
  | .addcbRI rn ri => enc2 0x19#8 (rn ++ (0b10#2 ++ ri))
  | .addcbRIP rn ri => enc2 0x19#8 (rn ++ (0b11#2 ++ ri))
  | .addcbR3 rn d => enc2 0x19#8 (rn ++ (0b0#1 ++ d))
  | .addcbRegImm reg d => [0x17#8, reg, d, 0x00#8]
  | .addcbRegMem reg mem => enc4 0x13#8 reg mem
  | .addcbMemReg mem reg => enc4 0x15#8 reg mem
  | .subRR rn rm => enc2 0x20#8 (rn ++ rm)
  | .subRI rn ri => enc2 0x28#8 (rn ++ (0b10#2 ++ ri))
  | .subRIP rn ri => enc2 0x28#8 (rn ++ (0b11#2 ++ ri))
  | .subR3 rn d => enc2 0x28#8 (rn ++ (0b0#1 ++ d))
  | .subRegImm reg d => enc4 0x26#8 reg d
  | .subRegMem reg mem => enc4 0x22#8 reg mem
  | .subMemReg mem reg => enc4 0x24#8 reg mem
  | .subbRR rn rm => enc2 0x21#8 (rn ++ rm)
  | .subbRI rn ri => enc2 0x29#8 (rn ++ (0b10#2 ++ ri))
  | .subbRIP rn ri => enc2 0x29#8 (rn ++ (0b11#2 ++ ri))
  | .subbR3 rn d => enc2 0x29#8 (rn ++ (0b0#1 ++ d))
  | .subbRegImm reg d => [0x27#8, reg, d, 0x00#8]
  | .subbRegMem reg mem => enc4 0x23#8 reg mem
  | .subbMemReg mem reg => enc4 0x25#8 reg mem
  | .subcRR rn rm => enc2 0x30#8 (rn ++ rm)
  | .subcRI rn ri => enc2 0x38#8 (rn ++ (0b10#2 ++ ri))
  | .subcRIP rn ri => enc2 0x38#8 (rn ++ (0b11#2 ++ ri))
  | .subcR3 rn d => enc2 0x38#8 (rn ++ (0b0#1 ++ d))
  | .subcRegImm reg d => enc4 0x36#8 reg d
  | .subcRegMem reg mem => enc4 0x32#8 reg mem
  | .subcMemReg mem reg => enc4 0x34#8 reg mem
  | .subcbRR rn rm => enc2 0x31#8 (rn ++ rm)
  | .subcbRI rn ri => enc2 0x39#8 (rn ++ (0b10#2 ++ ri))
  | .subcbRIP rn ri => enc2 0x39#8 (rn ++ (0b11#2 ++ ri))
  | .subcbR3 rn d => enc2 0x39#8 (rn ++ (0b0#1 ++ d))
  | .subcbRegImm reg d => [0x37#8, reg, d, 0x00#8]
  | .subcbRegMem reg mem => enc4 0x33#8 reg mem
  | .subcbMemReg mem reg => enc4 0x35#8 reg mem
  | .cmpRR rn rm => enc2 0x40#8 (rn ++ rm)
  | .cmpRI rn ri => enc2 0x48#8 (rn ++ (0b10#2 ++ ri))
  | .cmpRIP rn ri => enc2 0x48#8 (rn ++ (0b11#2 ++ ri))
  | .cmpR3 rn d => enc2 0x48#8 (rn ++ (0b0#1 ++ d))
  | .cmpRegImm reg d => enc4 0x46#8 reg d
  | .cmpRegMem reg mem => enc4 0x42#8 reg mem
  | .cmpbRR rn rm => enc2 0x41#8 (rn ++ rm)
  | .cmpbRI rn ri => enc2 0x49#8 (rn ++ (0b10#2 ++ ri))
  | .cmpbRIP rn ri => enc2 0x49#8 (rn ++ (0b11#2 ++ ri))
  | .cmpbR3 rn d => enc2 0x49#8 (rn ++ (0b0#1 ++ d))
  | .cmpbRegImm reg d => [0x47#8, reg, d, 0x00#8]
  | .cmpbRegMem reg mem => enc4 0x43#8 reg mem
  | .xorRR rn rm => enc2 0x50#8 (rn ++ rm)
  | .xorRI rn ri => enc2 0x58#8 (rn ++ (0b10#2 ++ ri))
  | .xorRIP rn ri => enc2 0x58#8 (rn ++ (0b11#2 ++ ri))
  | .xorR3 rn d => enc2 0x58#8 (rn ++ (0b0#1 ++ d))
  | .xorRegImm reg d => enc4 0x56#8 reg d
  | .xorRegMem reg mem => enc4 0x52#8 reg mem
  | .xorMemReg mem reg => enc4 0x54#8 reg mem
  | .xorbRR rn rm => enc2 0x51#8 (rn ++ rm)
  | .xorbRI rn ri => enc2 0x59#8 (rn ++ (0b10#2 ++ ri))
  | .xorbRIP rn ri => enc2 0x59#8 (rn ++ (0b11#2 ++ ri))
  | .xorbR3 rn d => enc2 0x59#8 (rn ++ (0b0#1 ++ d))
  | .xorbRegImm reg d => [0x57#8, reg, d, 0x00#8]
  | .xorbRegMem reg mem => enc4 0x53#8 reg mem
  | .xorbMemReg mem reg => enc4 0x55#8 reg mem
  | .andRR rn rm => enc2 0x60#8 (rn ++ rm)
  | .andRI rn ri => enc2 0x68#8 (rn ++ (0b10#2 ++ ri))
  | .andRIP rn ri => enc2 0x68#8 (rn ++ (0b11#2 ++ ri))
  | .andR3 rn d => enc2 0x68#8 (rn ++ (0b0#1 ++ d))
  | .andRegImm reg d => enc4 0x66#8 reg d
  | .andRegMem reg mem => enc4 0x62#8 reg mem
  | .andMemReg mem reg => enc4 0x64#8 reg mem
  | .andbRR rn rm => enc2 0x61#8 (rn ++ rm)
  | .andbRI rn ri => enc2 0x69#8 (rn ++ (0b10#2 ++ ri))
  | .andbRIP rn ri => enc2 0x69#8 (rn ++ (0b11#2 ++ ri))
  | .andbR3 rn d => enc2 0x69#8 (rn ++ (0b0#1 ++ d))
  | .andbRegImm reg d => [0x67#8, reg, d, 0x00#8]
  | .andbRegMem reg mem => enc4 0x63#8 reg mem
  | .andbMemReg mem reg => enc4 0x65#8 reg mem
  | .orRR rn rm => enc2 0x70#8 (rn ++ rm)
  | .orRI rn ri => enc2 0x78#8 (rn ++ (0b10#2 ++ ri))
  | .orRIP rn ri => enc2 0x78#8 (rn ++ (0b11#2 ++ ri))
  | .orR3 rn d => enc2 0x78#8 (rn ++ (0b0#1 ++ d))
  | .orRegImm reg d => enc4 0x76#8 reg d
  | .orRegMem reg mem => enc4 0x72#8 reg mem
  | .orMemReg mem reg => enc4 0x74#8 reg mem
  | .orbRR rn rm => enc2 0x71#8 (rn ++ rm)
  | .orbRI rn ri => enc2 0x79#8 (rn ++ (0b10#2 ++ ri))
  | .orbRIP rn ri => enc2 0x79#8 (rn ++ (0b11#2 ++ ri))
  | .orbR3 rn d => enc2 0x79#8 (rn ++ (0b0#1 ++ d))
  | .orbRegImm reg d => [0x77#8, reg, d, 0x00#8]
  | .orbRegMem reg mem => enc4 0x73#8 reg mem
  | .orbMemReg mem reg => enc4 0x75#8 reg mem
  | .mul rn rm => enc2 0x0B#8 (rn ++ rm)
  | .mulu rn rm => enc2 0x1B#8 (rn ++ rm)
  | .div rn => enc2 0x4B#8 (rn ++ rn)
  | .divu rn => enc2 0x5B#8 (rn ++ rn)
  | .divl rn => enc2 0x6B#8 (rn ++ rn)
  | .divlu rn => enc2 0x7B#8 (rn ++ rn)
  | .cpl rn => enc2 0x91#8 (rn ++ 0x0#4)
  | .cplb rn => enc2 0xB1#8 (rn ++ 0x0#4)
  | .neg rn => enc2 0x81#8 (rn ++ 0x0#4)
  | .negb rn => enc2 0xA1#8 (rn ++ 0x0#4)
  | .cmpi1R4 rn d => enc2 0x80#8 (d ++ rn)
  | .cmpi1R16 rn d => enc4 0x86#8 (0xF#4 ++ rn) d
  | .cmpi1RMem rn mem => enc4 0x82#8 (0xF#4 ++ rn) mem
  | .cmpi2R4 rn d => enc2 0x90#8 (d ++ rn)
  | .cmpi2R16 rn d => enc4 0x96#8 (0xF#4 ++ rn) d
  | .cmpi2RMem rn mem => enc4 0x92#8 (0xF#4 ++ rn) mem
  | .cmpd1R4 rn d => enc2 0xA0#8 (d ++ rn)
  | .cmpd1R16 rn d => enc4 0xA6#8 (0xF#4 ++ rn) d
  | .cmpd1RMem rn mem => enc4 0xA2#8 (0xF#4 ++ rn) mem
  | .cmpd2R4 rn d => enc2 0xB0#8 (d ++ rn)
  | .cmpd2R16 rn d => enc4 0xB6#8 (0xF#4 ++ rn) d
  | .cmpd2RMem rn mem => enc4 0xB2#8 (0xF#4 ++ rn) mem
  | .bfldl bitoff mask d => [0x0A#8, bitoff, mask, d]
  | .bfldh bitoff mask d => [0x1A#8, bitoff, d, mask]
  | .bcmp bitoffZ z bitoffQ q => [0x2A#8, bitoffQ, bitoffZ, q ++ z]
  | .bmovn bitoffZ z bitoffQ q => [0x3A#8, bitoffQ, bitoffZ, q ++ z]
  | .bmov bitoffZ z bitoffQ q => [0x4A#8, bitoffQ, bitoffZ, q ++ z]
  | .bor bitoffZ z bitoffQ q => [0x5A#8, bitoffQ, bitoffZ, q ++ z]
  | .band bitoffZ z bitoffQ q => [0x6A#8, bitoffQ, bitoffZ, q ++ z]
  | .bxor bitoffZ z bitoffQ q => [0x7A#8, bitoffQ, bitoffZ, q ++ z]
  | .bclr bitoff q => enc2 (q ++ 0xE#4) bitoff
  | .bset bitoff q => enc2 (q ++ 0xF#4) bitoff
  | .rolRR rn rm => enc2 0x0C#8 (rn ++ rm)
  | .rolR4 rn d => enc2 0x1C#8 (d ++ rn)
  | .rorRR rn rm => enc2 0x2C#8 (rn ++ rm)
  | .rorR4 rn d => enc2 0x3C#8 (d ++ rn)
  | .shlRR rn rm => enc2 0x4C#8 (rn ++ rm)
  | .shlR4 rn d => enc2 0x5C#8 (d ++ rn)
  | .shrRR rn rm => enc2 0x6C#8 (rn ++ rm)
  | .shrR4 rn d => enc2 0x7C#8 (d ++ rn)
  | .ashrRR rn rm => enc2 0xAC#8 (rn ++ rm)
  | .ashrR4 rn d => enc2 0xBC#8 (d ++ rn)
  | .prior rn rm => enc2 0x2B#8 (rn ++ rm)
  | .movRR rn rm => enc2 0xF0#8 (rn ++ rm)
  | .movR4 rn d => enc2 0xE0#8 (d ++ rn)
  | .movRegImm reg d => enc4 0xE6#8 reg d
  | .movRI rn rm => enc2 0xA8#8 (rn ++ rm)
  | .movRIP rn rm => enc2 0x98#8 (rn ++ rm)
  | .movIR rm rn => enc2 0xB8#8 (rn ++ rm)
  | .movDR rm rn => enc2 0x88#8 (rn ++ rm)
  | .movII rn rm => enc2 0xC8#8 (rn ++ rm)
  | .movIPI rn rm => enc2 0xD8#8 (rn ++ rm)
  | .movIIP rn rm => enc2 0xE8#8 (rn ++ rm)
  | .movRX rn rm d => enc4 0xD4#8 (rn ++ rm) d
  | .movXR rm d rn => enc4 0xC4#8 (rn ++ rm) d
  | .movIMem rn mem => enc4 0x84#8 (0x0#4 ++ rn) mem
  | .movMemI mem rn => enc4 0x94#8 (0x0#4 ++ rn) mem
  | .movRegMem reg mem => enc4 0xF2#8 reg mem
  | .movMemReg mem reg => enc4 0xF6#8 reg mem
  | .movbRR rn rm => enc2 0xF1#8 (rn ++ rm)
  | .movbR4 rn d => enc2 0xE1#8 (d ++ rn)
  | .movbRegImm reg d => [0xE7#8, reg, d, 0x00#8]
  | .movbRI rn rm => enc2 0xA9#8 (rn ++ rm)
  | .movbRIP rn rm => enc2 0x99#8 (rn ++ rm)
  | .movbIR rm rn => enc2 0xB9#8 (rn ++ rm)
  | .movbDR rm rn => enc2 0x89#8 (rn ++ rm)
  | .movbII rn rm => enc2 0xC9#8 (rn ++ rm)
  | .movbIPI rn rm => enc2 0xD9#8 (rn ++ rm)
  | .movbIIP rn rm => enc2 0xE9#8 (rn ++ rm)
  | .movbRX rn rm d => enc4 0xF4#8 (rn ++ rm) d
  | .movbXR rm d rn => enc4 0xE4#8 (rn ++ rm) d
  | .movbIMem rn mem => enc4 0xA4#8 (0x0#4 ++ rn) mem
  | .movbMemI mem rn => enc4 0xB4#8 (0x0#4 ++ rn) mem
  | .movbRegMem reg mem => enc4 0xF3#8 reg mem
  | .movbMemReg mem reg => enc4 0xF7#8 reg mem
  | .movbsRR rn rm => enc2 0xD0#8 (rm ++ rn)
  | .movbsRegMem reg mem => enc4 0xD2#8 reg mem
  | .movbsMemReg mem reg => enc4 0xD5#8 reg mem
  | .movbzRR rn rm => enc2 0xC0#8 (rm ++ rn)
  | .movbzRegMem reg mem => enc4 0xC2#8 reg mem
  | .movbzMemReg mem reg => enc4 0xC5#8 reg mem
  | .push reg => enc2 0xEC#8 reg
  | .pop reg => enc2 0xFC#8 reg
  | .scxtRegImm reg d => enc4 0xC6#8 reg d
  | .scxtRegMem reg mem => enc4 0xD6#8 reg mem
  | .jmpa cc caddr => enc4 0xEA#8 (ccNum cc ++ 0x0#4) caddr
  | .jmpi cc rn => enc2 0x9C#8 (ccNum cc ++ rn)
  | .jmpr cc rel => enc2 (ccNum cc ++ 0xD#4) rel
  | .jmps seg caddr => enc4 0xFA#8 seg caddr
  | .jb bitoff q rel => [0x8A#8, bitoff, rel, q ++ 0x0#4]
  | .jnb bitoff q rel => [0x9A#8, bitoff, rel, q ++ 0x0#4]
  | .jbc bitoff q rel => [0xAA#8, bitoff, rel, q ++ 0x0#4]
  | .jnbs bitoff q rel => [0xBA#8, bitoff, rel, q ++ 0x0#4]
  | .calla cc caddr => enc4 0xCA#8 (ccNum cc ++ 0x0#4) caddr
  | .calli cc rn => enc2 0xAB#8 (ccNum cc ++ rn)
  | .callr rel => enc2 0xBB#8 rel
  | .calls seg caddr => enc4 0xDA#8 seg caddr
  | .pcall reg caddr => enc4 0xE2#8 reg caddr
  | .trap trap7 => enc2 0x9B#8 (trap7 ++ 0b0#1)
  | .ret => enc2 0xCB#8 0x00#8
  | .rets => enc2 0xDB#8 0x00#8
  | .retp reg => enc2 0xEB#8 reg
  | .reti => enc2 0xFB#8 0x88#8
  | .srst => [0xB7#8, 0x48#8, 0xB7#8, 0xB7#8]
  | .idle => [0x87#8, 0x78#8, 0x87#8, 0x87#8]
  | .pwrdn => [0x97#8, 0x68#8, 0x97#8, 0x97#8]
  | .srvwdt => [0xA7#8, 0x58#8, 0xA7#8, 0xA7#8]
  | .diswdt => [0xA5#8, 0x5A#8, 0xA5#8, 0xA5#8]
  | .einit => [0xB5#8, 0x4A#8, 0xB5#8, 0xB5#8]
  | .nop => enc2 0xCC#8 0x00#8
  | .atomic irang => enc2 0xD1#8 (0b00#2 ++ (irangField irang ++ 0x0#4))
  | .extr irang => enc2 0xD1#8 (0b10#2 ++ (irangField irang ++ 0x0#4))
  | .extpR rm irang => enc2 0xDC#8 (0b01#2 ++ (irangField irang ++ rm))
  | .extpImm pag irang => [0xD7#8, 0b01#2 ++ (irangField irang ++ 0x0#4), pag.extractLsb' 0 8, 0b000000#6 ++ pag.extractLsb' 8 2]
  | .extprR rm irang => enc2 0xDC#8 (0b11#2 ++ (irangField irang ++ rm))
  | .extprImm pag irang => [0xD7#8, 0b11#2 ++ (irangField irang ++ 0x0#4), pag.extractLsb' 0 8, 0b000000#6 ++ pag.extractLsb' 8 2]
  | .extsR rm irang => enc2 0xDC#8 (0b00#2 ++ (irangField irang ++ rm))
  | .extsImm seg irang => [0xD7#8, 0b00#2 ++ (irangField irang ++ 0x0#4), seg, 0x00#8]
  | .extsrR rm irang => enc2 0xDC#8 (0b10#2 ++ (irangField irang ++ rm))
  | .extsrImm seg irang => [0xD7#8, 0b10#2 ++ (irangField irang ++ 0x0#4), seg, 0x00#8]

end Sys2Proof
end

