-- ==== Sys2Proof/Machine/Fetch.lean ====
section
/-! DEFINITION. Fetching the bytes of an instruction (30_encoding.md R179, 10_state.md R29, 20_memory.md R106, R110,
R154, 61_peripherals_a.md R662). -/
namespace Sys2Proof.Machine

/-- A cell of an instruction was stored to since the last taken branch, or since the jump cache took the instruction
(R154, D11). -/
def State.staleCode (s : State) (cells : List Nat) : Bool :=
  cells.any (fun k => s.sys.stored.contains k) ||
    ((match s.sys.jumpCache with
      | some (_, t) => t == s.pcAddr.toNat
      | none => false) && cells.any (fun k => s.sys.cacheStored.contains k))

/-- Where code bytes come from. -/
inductive CodeSource
  | cell (k : Nat)
  | can (k : Fin 256)
  /-- no external bus: ILLBUS -/
  | none

/-- The source of the code word at a physical address under a mapping. The spec gives no code access to the CAN module (20_memory.md R106):
that it delivers the module's bytes, without the acknowledge of a status read, is a DESIGN CHOICE (log 45). -/
def codeSource (m : BusMap) (a : Addr) (area : Area) : Act CodeSource := do
  let bsl ← look (fun s => s.sys.bslMode)
  match area with
  | .iram => pure (.cell (iramCell a.toNat))
  | .xram => pure (.cell (xramCell a.toNat))
  | .rom off => if bsl then refuse .bootRom else pure (.cell (romCell off))
  | .romAbsent => if bsl then refuse .bootRom else refuse .romAbsent
  | .sfr _ => refuse .fetchFromSfr
  | .reserved => faultAt (.reservedArea a.toNat)
  | .can k => pure (.can k)
  | .badWindow => refuse .reservedWindow
  | .overlap => refuse .overlappingWindows
  | .ext x => do
    if ← look (fun s => s.busBlocked m x) then waitBus [] else pure ()
    let k ← look (fun s => s.extCell m x false a)
    pure (.cell k)
  | .noBus => pure .none

/-! ## How far the fetches have run, and what they leave on the bus lines (R635, 20_memory.md R151, R154, D10) -/

/-- The cell behind a code byte under a mapping, where plain memory answers. -/
def State.codeCell (s : State) (m : BusMap) (ip : Word) : Option Nat :=
  let a := s.codeAddr m ip
  match areaOf s.env.device m a with
  | .iram => some (iramCell a.toNat)
  | .xram => some (xramCell a.toNat)
  | .rom off => some (romCell off)
  | .ext x => some (s.extCell m x false a)
  | _ => none

/-- The code byte that a fetch ahead finds, none where nothing can be fetched now. -/
def State.codeByte (s : State) (m : BusMap) (ip : Word) : Option Byte :=
  let a := s.codeAddr m ip
  match areaOf s.env.device m a with
  | .can k => some (s.canRead k)
  | .ext x => if s.busBlocked m x then none else some (s.mem.get (s.extCell m x false a))
  | _ => (s.codeCell m ip).map s.mem.get

/-- The length of `n` instructions that follow each other from `ip` on, as far as their code can be fetched. -/
def State.codeSpan (s : State) (m : BusMap) : Nat → Word → Nat
  | 0, _ => 0
  | n + 1, ip =>
    match s.codeByte m ip with
    | none => 0
    | some b =>
      let len := if isLong b then 4 else 2
      let next := ip + BitVec.ofNat 16 len
      len + (if next < ip then 0 else s.codeSpan m n next)

/-- Code bytes from the program counter on that have been fetched already. -/
def State.fetchedAhead (s : State) : Nat := s.bus.fetched - (s.core.ip - s.bus.fetchAt).toNat

/-- The lines that the cycle leaves which fetches the byte `i` from the program counter on, none where it uses no bus: a word
in one cycle, over an 8-bit bus in two (R634). -/
def State.codeCycle (s : State) (m : BusMap) (i : Nat) : Option BusLines :=
  let a := s.codeAddr m (s.core.ip + BitVec.ofNat 16 (i / 2 * 2))
  (busAccess m (areaOf s.env.device m a) a true).map (fun l => if i % 2 = 0 then { l with addr := a } else l)

/-- A number of bytes from the program counter on, and one more where the cycle of the last one fetches that too. -/
def State.wholeCycles (s : State) (m : BusMap) (n : Nat) : Nat :=
  if n % 2 = 1 && s.codeCycle m (n - 1) == s.codeCycle m n then n + 1 else n

/-- The lines after the cycles that fetch the bytes from `i` to before `j`: those of the last one that uses the bus. -/
def State.linesAfter (s : State) (m : BusMap) (i j : Nat) : BusLines :=
  ((List.range (j - i)).reverse.findSome? (fun k => s.codeCycle m (i + k))).getD s.bus.lines

/-- Where the fetches stand: `need` bytes from the program counter on at least, by a free choice more, up to the end of
`depth` instructions. They run ahead in the order of the addresses; the target of a branch is fetched once it is taken:
DESIGN CHOICE (log 48). -/
def State.fetchEnd (s : State) (m : BusMap) (need depth : Nat) : Nat :=
  let least := max s.fetchedAhead need
  let more := s.codeSpan m depth s.core.ip - least
  s.wholeCycles m (least + Config.freeNat .prefetch s.free need % (more + 1))

/-- The bus after the fetches up to there. Bytes that have been fetched already are not fetched again. -/
def State.fetchUpTo (s : State) (m : BusMap) (need depth : Nat) : Bus :=
  let n := s.fetchEnd m need depth
  { s.bus with lines := s.linesAfter m s.fetchedAhead n, fetchAt := s.core.ip, fetched := n }

/-- `need` bytes of the current instruction are fetched, and by a free choice bytes up to the third instruction behind it
(R154). -/
def State.noteFetch (s : State) (m : BusMap) (need : Nat) : State := { s with bus := s.fetchUpTo m need 4 }

/-- After a taken branch what was fetched ahead is gone; the target instruction of a cache jump may come from the jump cache
instead of the memory (70_reset_and_hazards.md R931). -/
def State.refill (s : State) : State :=
  if s.sys.flushed then
    { s with
      sys := { s.sys with flushed := false, cacheHit := false }
      bus := { s.bus with
        fetchAt := s.core.ip, fetched := if s.sys.cacheHit then s.codeSpan s.fetchMap 1 s.core.ip else 0 } }
  else s

/-- The end of the clocks of a step: while the program runs, by a free choice up to three instructions from the program
counter on have been fetched (R151, R154). -/
def State.notePrefetch (s : State) : State :=
  let t := s.refill
  if t.sys.cpu = .running then { t with bus := t.fetchUpTo t.fetchMap 0 3 } else t

/-- The two code bytes at an even physical address under a mapping, none where no bus answers. With them `need` bytes of the
instruction have been fetched (61_peripherals_a.md R635). -/
def fetchWord (m : BusMap) (a : Addr) (need : Nat) : Act (Option (Byte × Byte)) := do
  let area ← look (fun s => areaOf s.env.device m a)
  let source ← codeSource m a area
  change (fun s => s.noteFetch m need)
  match source with
  | .none => pure none
  | .cell k =>
    if ← look (fun s => s.staleCode [k, k + 1]) then refuse .selfModifiedCode
    let lo ← look (fun s => s.mem.get k)
    let hi ← look (fun s => s.mem.get (k + 1))
    pure (some (lo, hi))
  | .can k =>
    let h : Fin 256 := ⟨(k.val + 1) % 256, Nat.mod_lt _ (by omega)⟩
    let lo ← look (fun s => s.canRead k)
    let hi ← look (fun s => s.canRead h)
    pure (some (lo, hi))

/-- The code address `ip` under a mapping, and the kind of memory there. -/
def State.codePlace (s : State) (m : BusMap) (ip : Word) : Addr × Nat :=
  let a := s.codeAddr m ip
  (a, codeRegion s.env.device m.syscon a)

/-- The two words of an instruction at `ip` do not lie in one memory area, page and segment (20_memory.md R103, 10_state.md
R29): the second is the first of a page, a segment's among them, or lies in another kind of memory. -/
def splitCode (ip : Word) (p0 p1 : Addr × Nat) : Bool := (ip + 2).extractLsb' 0 14 == 0#14 || p1.2 != p0.2

/-- The bytes of the instruction at the program counter; none where the fetch finds no bus. Nothing but the
record of the bus changes. -/
def fetch : Act (Option (List Byte)) := do
  if ← look (fun s => s.sys.crossed) then refuse .sequentialCrossing
  let m ← look State.fetchMap
  let ip ← look (fun s => s.core.ip)
  let p0 ← look (fun s => s.codePlace m ip)
  match ← fetchWord m p0.1 2 with
  | none => pure none
  | some (b0, b1) =>
    if isLong b0 then
      let p1 ← look (fun s => s.codePlace m (ip + 2))
      if splitCode ip p0 p1 then refuse .sequentialCrossing
      match ← fetchWord m p1.1 4 with
      | none => pure none
      | some (b2, b3) => pure (some [b0, b1, b2, b3])
    else pure (some [b0, b1])

/-- `s` with bytes placed in memory from the code address `ip` on. -/
def State.placeCode : State → Word → List Byte → State
  | s, _, [] => s
  | s, ip, b :: l =>
    match s.codeCell s.busMap ip with
    | some k => State.placeCode { s with mem := s.mem.set k b } (ip + 1) l
    | none => State.placeCode s (ip + 1) l

end Sys2Proof.Machine
end

