-- ==== Sys2Proof/Machine/Interrupts.lean ====
section
/-! DEFINITION. The interrupt system between two instructions (60_exceptions.md): hardware traps (R547), the round of
prioritisation (R520), interrupt entry (R540), the PEC (R530, R531), and the interruption of a multiply or divide
(40_arithmetic.md R245). -/
namespace Sys2Proof.Machine

/-! ## Hardware traps (R547, R550) -/

/-- The class A trap to enter: its vector number and its flag, in the order NMI, STKOF, STKUF. -/
def classATrap (treq : Word) : Option (Nat × Word) :=
  if wbit treq 15 then some (2, tfrNmi)
  else if wbit treq 14 then some (4, tfrStkof)
  else if wbit treq 13 then some (6, tfrStkuf)
  else none

/-- A class A trap may be entered: none is being served, no locked sequence, no deferral. -/
def State.classAOpen (s : State) : Bool := !s.sys.inA && s.sys.ext.count == 0 && s.sys.deferred == 0

/-- The hardware trap to enter at this boundary: its vector number, the request bits it clears, and whether it is of
class A. A class A trap that is held back does not hold back one of class B (DEDUCED from 49_system.md R460, log 10). -/
def State.trapDue (s : State) : Option (Nat × Word × Bool) :=
  let b := if s.sys.treq &&& tfrClassB ≠ 0 ∧ !s.sys.inA ∧ !s.sys.inB then some (0x0A, tfrClassB, false) else none
  match classATrap s.sys.treq with
  | some (n, f) => if s.classAOpen then some (n, f, true) else b
  | none => b

/-- A multiply or divide that RETI was to resume has not started again when a routine is entered (log 11). -/
def takeResume : Act Bool := do
  let r ← look (fun s => s.sys.resume)
  change (fun s => { s with sys := { s.sys with resume := false } })
  pure r

/-- The interrupted multiplies and divides after the entry of a hardware trap: the one that RETI was to resume at the
program counter, with MDH, MDL and MDC as its interruption left them, is marked as held up (log 11). -/
def State.heldFrames (s : State) : List MulFrame :=
  s.sys.suspended.map (fun f =>
    { f with held := f.held || (s.sys.resume && f.addr == s.pcAddr.toNat && f.kMdh == s.core.mdh &&
        f.kMdl == s.core.mdl && f.kMdc == s.core.mdc) })

/-- A hardware trap is entered while a multiply or divide may be to be resumed: its record keeps that (log 11). -/
def State.holdResume (s : State) : State :=
  { s with sys := { s.sys with resume := false, suspended := s.heldFrames } }

/-- Enter a hardware trap with the address of the next instruction (R543, R547). It never sets MULIP, which R540 sets for
interrupts only; a multiply or divide that was to be resumed completes after the routine (40_arithmetic.md R245; log 11). -/
def takeTrap (n : Nat) (mask : Word) (classA : Bool) : Act Unit := do
  change State.holdResume
  change (fun s => { s with sys := { s.sys with
    treq := s.sys.treq &&& ~~~mask
    inA := s.sys.inA || classA
    inB := s.sys.inB || !classA } })
  let ret ← look (fun s => s.core.ip)
  enterHardware n 15 ret false

/-! ## The round of prioritisation (R502, R511, R520) -/

/-- The 56 interrupt nodes: control register and trap number (R502). -/
def nodes : List (Sfr × Nat) := [
  (444, 0x10), (445, 0x11), (446, 0x12), (447, 0x13), (448, 0x14), (449, 0x15), (450, 0x16),
  (451, 0x17), (452, 0x18), (453, 0x19), (454, 0x1A), (455, 0x1B), (456, 0x1C), (457, 0x1D),
  (458, 0x1E), (459, 0x1F), (176, 0x30), (177, 0x31), (178, 0x32), (179, 0x33), (180, 0x34),
  (181, 0x35), (182, 0x36), (183, 0x37), (184, 0x38), (185, 0x39), (186, 0x3A), (187, 0x3B),
  (188, 0x3C), (194, 0x44), (198, 0x45), (202, 0x46), (462, 0x20), (463, 0x21), (189, 0x3D),
  (190, 0x3E), (432, 0x22), (433, 0x23), (434, 0x24), (435, 0x25), (436, 0x26), (437, 0x27),
  (460, 0x28), (461, 0x29), (438, 0x2A), (206, 0x47), (439, 0x2B), (440, 0x2C), (441, 0x2D),
  (442, 0x2E), (443, 0x2F), (191, 0x3F), (195, 0x40), (199, 0x41), (203, 0x42), (207, 0x43)]

/-- The best request so far in a round. -/
structure Winner where
  ic : Sfr
  vec : Nat
  /-- ILVL and GLVL as one number -/
  prio : Nat
  /-- another pending request has the same level and group (U22) -/
  tie : Bool
deriving DecidableEq, Repr

/-- One node takes part in the round. -/
def State.contend (s : State) (w : Option Winner) (n : Sfr × Nat) : Option Winner :=
  if s.regBit n.1 7 && s.regBit n.1 6 then
    let p := fieldNat (s.reg n.1) 0 6
    match w with
    | none => some { ic := n.1, vec := n.2, prio := p, tie := false }
    | some v =>
      if v.prio < p then some { ic := n.1, vec := n.2, prio := p, tie := false }
      else if v.prio = p then some { v with tie := true }
      else w
  else w

/-- The request with the highest priority. -/
def State.winner (s : State) : Option Winner := nodes.foldl s.contend none

/-- Some source is enabled and requests (49_system.md R452). -/
def State.anyRequest (s : State) : Bool := nodes.any (fun n => s.regBit n.1 7 && s.regBit n.1 6)

/-- A request of a level is accepted: IEN is set and the level above ILVL. After a software write of PSW the first
boundary uses the old values, the second one the new ones or, by a free choice, still the old (70_reset_and_hazards.md
R924). -/
def State.accepts (s : State) (level : Nat) : Bool :=
  let now := wbit s.core.psw 11 && decide ((pswLevel s.core.psw).toNat < level)
  match s.sys.pswHist with
  | none => now
  | some h =>
    let old := h.ien && decide (h.ilvl.toNat < level)
    if h.age ≤ 1 then old else now || (old && Config.freeBool .lateRequest s.free 0)

/-- The interrupt system is enabled, now or by the values a write of PSW replaced. -/
def State.enabled (s : State) : Bool :=
  wbit s.core.psw 11 || (match s.sys.pswHist with | none => false | some h => h.ien)

/-- What a round decides. -/
inductive Service
  | none
  /-- two requests of the same priority (U22) -/
  | tie
  | pec (ic : Sfr) (ch : Fin 8)
  | interrupt (ic : Sfr) (vec : Nat) (level : Nat)
deriving DecidableEq, Repr

/-- One round of prioritisation (R520, R521). -/
def State.service (s : State) : Service :=
  if s.enabled then
    match s.winner with
    | none => .none
    | some w =>
      let level := w.prio / 4
      let ch : Fin 8 := ⟨w.prio % 8, Nat.mod_lt _ (by omega)⟩
      if s.accepts level then
        if w.tie then .tie
        else if decide (14 ≤ level) && fieldNat (s.reg (Sfr.pecc ch)) 0 8 != 0 then .pec w.ic ch
        else .interrupt w.ic w.vec level
      else .none
  else .none

/-- Take an interrupt: its request flag is cleared and its vector entered at its level (R540, R542). -/
def takeInterrupt (ic : Sfr) (vec level : Nat) : Act Unit := do
  change (fun s => s.setRegBit ic 7 false)
  let mul ← takeResume
  let ret ← look (fun s => s.core.ip)
  enterHardware vec (BitVec.ofNat 4 level) ret mul

/-! ## The PEC (R530 to R532) -/

/-- The cell of SRCPx, with DSTPx in the next word. -/
def pecPointer (ch : Fin 8) : Nat := iramCell (0xFCE0 + 4 * ch.val)

/-- A physical address in segment 0. -/
def segment0 (a : Word) : Addr := 0#8 ++ a

/-- COUNT and the request flag after a transfer (R531). -/
def State.pecCount (s : State) (ic : Sfr) (ch : Fin 8) (count : Nat) : State :=
  let s :=
    if count = 0xFF then s
    else s.setReg (Sfr.pecc ch) ((s.reg (Sfr.pecc ch) &&& 0xFF00) ||| BitVec.ofNat 16 (count - 1))
  if count = 1 then s else s.setRegBit ic 7 false

/-- One PEC transfer; a word transfer with an odd pointer raises ILLOPA and changes nothing else (R530, D19). -/
def pecTransfer (ic : Sfr) (ch : Fin 8) : Act Unit := do
  let src ← look (fun s => s.mem.getWord (pecPointer ch))
  let dst ← look (fun s => s.mem.getWord (pecPointer ch + 2))
  let con ← look (fun s => s.reg (Sfr.pecc ch))
  let byte := wbit con 8
  if !byte && (wbit src 0 || wbit dst 0) then raiseTrap tfrIllopa
  else
    if byte then
      let v ← readByte (segment0 src)
      writeByte (segment0 dst) v
    else
      let v ← readWord (segment0 src)
      writeWord (segment0 dst) v
    let step : Word := if byte then 1 else 2
    change (fun s =>
      match fieldNat con 9 2 with
      | 0 => s
      | 1 => s.storeWord (pecPointer ch + 2) (dst + step)
      | _ => s.storeWord (pecPointer ch) (src + step))
    change (fun s => s.pecCount ic ch (fieldNat con 0 8))

/-! ## The interruption of a multiply or divide (40_arithmetic.md R245, R545) -/

/-- A multiply or divide instruction. -/
def mulInstr (i : Instr) : Option MulInstr :=
  match i with
  | .mul rn rm => some { op := .mul, rn := rn, rm := rm }
  | .mulu rn rm => some { op := .mulu, rn := rn, rm := rm }
  | .div rn => some { op := .div, rn := rn, rm := rn }
  | .divu rn => some { op := .divu, rn := rn, rm := rn }
  | .divl rn => some { op := .divl, rn := rn, rm := rn }
  | .divlu rn => some { op := .divlu, rn := rn, rm := rn }
  | _ => none

/-- The interrupt taken in the middle of a multiply or divide: MDH, MDL and MDC are left with a free intermediate
state, MDRIU and the new MULIP are set, and the address of the instruction itself is the return address. An instruction whose
result is already undefined stays so: no frame is kept for it. -/
def interruptMul (ic : Sfr) (vec level : Nat) (m : MulInstr) : Act Unit := do
  let a ← readGpr m.rn
  let b ← readGpr m.rm
  let known ← resumeFrame m a b
  let k0 ← openWord .mulState 0
  let k1 ← openWord .mulState 1
  let k2 ← openWord .mulState 2
  let mdc : Word := 0x10 ||| (k2 &&& 0xEF)
  change (fun s =>
    let f : MulFrame :=
      { instr := m, addr := s.pcAddr.toNat, mdh := s.core.mdh, mdl := s.core.mdl, opA := a, opB := b
        kMdh := k0, kMdl := k1, kMdc := mdc, held := false }
    { s with
      core := { s.core with mdh := k0, mdl := k1, mdc := mdc }
      sys := { s.sys with suspended := if known then f :: s.sys.suspended else s.sys.suspended } })
  change (fun s => s.setRegBit ic 7 false)
  let ret ← look (fun s => s.core.ip)
  enterHardware vec (BitVec.ofNat 4 level) ret true

end Sys2Proof.Machine
end

