-- ==== Sys2Proof/Machine/Reset.lean ====
section
/-! DEFINITION. The reset procedure (70_reset_and_hazards.md R903) and the bootstrap loader (61_peripherals_a.md R660,
R661). -/
namespace Sys2Proof.Machine

/-- SYSCON as the pins configure it (R911). -/
def resetSyscon (ea : Bool) (p0 : Word) : Word :=
  wset (wset (wset 0 10 ea) 9 (!ea && !wbit p0 7)) 7 (!wbit p0 8)

/-- BUSCON0 as the pins configure it (R911). -/
def resetBuscon0 (ea : Bool) (p0 : Word) : Word := if ea then 0 else 0x0600 ||| (p0 &&& 0x00C0)

/-- Free bytes in the `n` cells from `base` (R906). -/
def freeCells (base : Nat) (step : Nat) : Nat → Memory → Memory
  | 0, m => m
  | n + 1, m => freeCells base step n (m.set (base + n) (Config.freeByte .powerOnRam step (base + n)))

/-- Bytes put into cells. -/
def storeCells (l : List (Nat × Byte)) (m : Memory) : Memory := l.foldl (fun m c => m.set c.1 c.2) m

/-- The external bus cycle that a reset aborts (R901, U41): the last write of the step before it is taken back, unless the
watchdog completed it, or the write that waits for READY is made, each by a free choice (log 55). -/
def State.abortBus (s : State) (source : ResetSource) : State :=
  let lost := fun (n : Nat) =>
    n + 1 == s.free && source != .watchdog && Config.freeBool .abortedWrite s.free 0
  let m :=
    match s.bus.undo with
    | some (n, old) => if lost n then storeCells old s.mem else s.mem
    | none => s.mem
  let made := (s.sys.waiting || s.sys.pecWait.isSome) && Config.freeBool .abortedWrite s.free 1
  { s with mem := if made then storeCells s.bus.pending m else m }

/-- What happens outside in `n + 1` CPU clocks in which nothing counts and nothing is accepted. -/
def sleepEvents : Nat → List (Nat × EnvEvent) → State → State
  | _, [], s => { s with env := { s.env with inbox := [] } }
  | n, (d, e) :: l, s =>
    if d ≤ n then sleepEvents (n - d) l (s.eventAsleep e) else { s with env := { s.env with inbox := (d - n - 1, e) :: l } }

/-- The clocks of the reset sequence: 516 and a free number more (R902, R934, D6). PORT0 is sampled after them.
DESIGN CHOICE (log 87): RSTIN going low in these clocks requests no reset of its own and leaves the source of this one; R904
says only that RSTIN active at their end prolongs the reset. -/
def State.resetPass (s : State) : State := sleepEvents (515 + Config.freeNat .resetClocks s.free 0) s.env.inbox s

/-- Memory after a reset: the internal RAM and the XRAM are kept, but free after power-on (R906, D4). -/
def State.resetMem (s : State) (powerOn : Bool) : Memory :=
  if powerOn then freeCells (iramCell 0xF600) s.free 0x800 (freeCells (xramCell 0xE000) s.free 0x800 s.mem) else s.mem

/-- The CAN module after a reset (64_can.md R880): the low control byte is 01h, the status byte and INTID are free, the
rest is kept, and free after power-on; with INIT set, NEWDAT and RMTPND of object 15 are reset (R876, R881). -/
def State.resetCan (s : State) (powerOn : Bool) : Can :=
  let ram := if powerOn then Vector.ofFn (fun (k : Fin 256) => Config.freeByte .canReset s.free k.val) else s.can.ram
  let ram := ram.set 0xF1 (setPair (setPair ram[0xF1] 0 false true) 6 false true)
  Can.reset (((ram.set 0 1).set 1 (Config.freeByte .canStatus s.free 1)).set 2 (Config.freeByte .canStatus s.free 2))

/-- Every register and latch after a reset with the given SYSCON, BUSCON0 and WDTCON (R903 (c), (d)); S0RBUF and SSCRB
are free. A request that RSTIN made in the clocks of the sequence is dropped: DESIGN CHOICE (log 87). -/
def State.resetAll (s : State) (powerOn : Bool) (syscon buscon0 wdtcon : Word) : State where
  core := Core.reset syscon
  sys := Sys.reset
  sfr :=
    ((SfrFile.reset (s.env.port0 >>> 8) buscon0 wdtcon).set Sfr.s0rbuf
      (Config.freeWord .serialReset s.free 0 &&& 0x01FF)).set Sfr.sscrb (Config.freeWord .serialReset s.free 1)
  mem := s.resetMem powerOn
  gpt := Gpt.reset
  asc := Asc.reset
  ssc := Ssc.reset
  capcom := Capcom.reset
  pwm := Pwm.reset
  adc := Adc.reset
  can := s.resetCan powerOn
  bus := Bus.reset buscon0
  clock := 0
  env := s.env
  free := s.free + 1

/-- Bootstrap loader mode (61_peripherals_a.md R660): the listed values, the watchdog disabled, and no fetch until the
host has loaded a program. What the loader sets after the zero byte, S0BG and the output TxD0, comes with `State.boot`. Whether EA takes part in the start-up configuration of BUSCON0 is free. -/
def State.enterLoader (s : State) (powerOn : Bool) : State :=
  let buscon0 := resetBuscon0 (s.env.ea && Config.freeBool .bootState s.free 0) s.env.port0
  let t := s.resetAll powerOn 0x0E00 buscon0 0
  let t := t.setReg Sfr.s0con 0x8011
  { t with
    core := { t.core with cp := 0xFA00, sp := 0xFA40, stkun := 0xFA40, stkov := 0xFA0C }
    sys := { t.sys with wdtDisabled := true, bslMode := true, cpu := .bootLoader } }

/-- The reset procedure (R903), after the running bus cycle is aborted and the clocks of the sequence have passed. A hardware reset reads the control pins: emulation mode, adapt mode or a reserved pin
low is refused (R905, R912). -/
def State.doReset (s : State) (source : ResetSource) : Result :=
  let s := (s.abortBus source).resetPass
  let p0 := s.env.port0
  let ea := s.env.ea
  match source with
  | .hardware powerOn =>
    if p0 &&& 0x002F = 0x002F then
      if wbit p0 4 then .next (s.resetAll powerOn (resetSyscon ea p0) (resetBuscon0 ea p0) 0)
      else .next (s.enterLoader powerOn)
    else .refused .resetConfiguration
  | .software => .next (s.resetAll false (resetSyscon ea p0) (resetBuscon0 ea p0) 0)
  | .watchdog => .next (s.resetAll false (resetSyscon ea p0) (resetBuscon0 ea p0) 2)

/-- The bytes of the loaded program, from 00'FA40h on. -/
def storeBytes : Nat → List Byte → Memory → Memory
  | _, [], m => m
  | k, b :: l, m => storeBytes (k + 1) l (m.set k b)

/-- The bootstrap loader finishes: 32 bytes at 00'FA40h, the baud rate it found, TxD0 on P3.10 switched to output after the
zero byte (R661, 70_reset_and_hazards.md R909), and free values in what it may have used: T6, T6CON, the GPRs at FA00h, the flags (R661, U28). -/
def State.boot (s : State) (bytes : Vector Byte 32) (brl : Word) : State :=
  let gprs := (List.range 32).map (fun i => Config.freeByte .bootState s.free (16 + i))
  let t := (s.setReg Sfr.t6 (Config.freeWord .bootState s.free 1)).setReg Sfr.t6con
    (Sfr.t6con.merge 0 (Config.freeWord .bootState s.free 2))
  let t := ((t.setReg Sfr.s0bg (brl &&& 0x1FFF)).setReg Sfr.p3 0x0400).setReg Sfr.dp3 0x0400
  { t with
    core := { t.core with
      ip := 0xFA40, csp := 0, psw := (t.core.psw &&& 0xFFE0) ||| (Config.freeWord .bootState s.free 3 &&& 0x1F) }
    sys := { t.sys with cpu := .running }
    asc := { t.asc with baud := brl &&& 0x1FFF }
    mem := storeBytes (iramCell 0xFA40) bytes.toList (storeBytes (iramCell 0xFA00) gprs t.mem) }

end Sys2Proof.Machine
end

