-- ==== Sys2Proof/Machine/Cycle.lean ====
section
/-! DEFINITION. What happens at an instruction boundary and around one instruction (60_exceptions.md R501): reset, the
stopped states of the CPU, traps and interrupts, fetch, decode and execution, and the clocks that pass meanwhile. -/
namespace Sys2Proof.Machine

/-! ## After an instruction or an injected sequence -/

/-- Replaced values after an injected sequence: it does not separate two instructions (70_reset_and_hazards.md R920). -/
def Lag.merge (older newer : Lag) : Lag where
  cp := newer.cp.or older.cp
  dpp := Vector.ofFn (fun n => (newer.dpp[n.val]).or older.dpp[n.val])
  sp := newer.sp.or older.sp
  map := newer.map.or older.map
  dp := newer.dp ++ older.dp

/-- The end of a trap entry, an interrupt entry or a PEC transfer. -/
def State.afterInjected (t : State) : State :=
  let t := t.pass.notePrefetch
  { t with
    sys := { t.sys with lag := t.sys.lag.merge t.sys.lagNext, lagNext := Lag.none, roundDone := true }
    free := t.free + 1 }

/-- Time passes and nothing else happens. -/
def State.elapse (t : State) : State :=
  let t := t.pass.notePrefetch
  { t with free := t.free + 1 }

/-- An injected sequence is made; where it finds the bus occupied it is tried again later. -/
def State.inject (s : State) (a : Act Unit) : Result :=
  match a.toOutcome { s with sys := { s.sys with waiting := false } } with
  | .next t => .next (if t.sys.waiting then s.elapse else t.afterInjected)
  | .fault f => .fault f
  | .refused r => .refused r

/-- A PEC transfer for the request `ic` on channel `ch`. One that cannot complete its bus cycle holds up the program, its
traps and interrupts until it can (61_peripherals_a.md R628). -/
def State.injectPec (s : State) (ic : Sfr) (ch : Fin 8) : Result :=
  match (pecTransfer ic ch).toOutcome { s with sys := { s.sys with waiting := false, pecWait := none } } with
  | .next t =>
    .next (if t.sys.waiting then
        let u := s.elapse
        { u with sys := { u.sys with pecWait := some (ic, ch) }, bus := { u.bus with pending := t.bus.pending } }
      else t.afterInjected)
  | .fault f => .fault f
  | .refused r => .refused r

/-- The six instructions that start a locked sequence (49_system.md R460). -/
def isExtension (i : Instr) : Bool :=
  match i with
  | .atomic _ | .extr _ | .extpR _ _ | .extpImm _ _ | .extprR _ _ | .extprImm _ _ | .extsR _ _ | .extsImm _ _
  | .extsrR _ _ | .extsrImm _ _ => true
  | _ => false

/-- One counted instruction of a locked sequence is over (R460). -/
def Ext.tick (e : Ext) : Ext :=
  if 1 < e.count then { e with count := e.count - 1 } else { count := 0, esfr := false, ovr := .none }

/-- The arbitration history one instruction later; the writing instruction itself counts (70_reset_and_hazards.md
R924). -/
def PswHist.older (h : Option PswHist) : Option PswHist :=
  match h with
  | none => none
  | some h => if h.age ≤ 1 then some { h with age := h.age + 1 } else none

/-- The counters of the hidden CPU state after an instruction. -/
def State.settle (t : State) (i : Instr) : State :=
  { t with sys := { t.sys with
      ext := if isExtension i then t.sys.ext else t.sys.ext.tick
      deferred := t.sys.deferred - 1
      retiDelay := t.sys.retiDelay - 1
      pswHist := PswHist.older t.sys.pswHist
      nmiEdge := false
      roundDone := false
      waiting := false } }

/-- The replaced values of this instruction are those of the next one's predecessor. -/
def State.shiftLag (t : State) : State :=
  { t with sys := { t.sys with lag := t.sys.lagNext, lagNext := Lag.none } }

/-- The end of instruction `i`, which left the state `t`: its clocks pass. After SRST only the reset remains. -/
def State.finish (t : State) (i : Instr) : State :=
  if t.sys.resetReq.isSome then t
  else
    let t := ((t.settle i).pass.notePrefetch).shiftLag
    { t with free := t.free + 1 }

/-! ## One instruction -/

/-- The instruction cannot complete its bus cycle, which would write `pending`: it starts again, with no trap and no
interrupt before it (61_peripherals_a.md R628, R640). -/
def State.stall (s : State) (pending : List (Nat × Byte)) : State := s.elapse.waits pending

/-- Execute `i` in the state `s`. -/
def State.runPlain (s : State) (i : Instr) : Result :=
  match exec i { s with sys := { s.sys with waiting := false } } with
  | .next t => .next (if t.sys.waiting then s.stall t.bus.pending else t.finish i)
  | .fault f => .fault f
  | .refused r => .refused r

/-- A multiply or divide can be interrupted now: no locked sequence, and not the first instruction after RETI. -/
def State.mulOpen (s : State) : Bool := s.enabled && s.sys.ext.count == 0 && decide (s.sys.retiDelay ≤ 1)

/-- A multiply or divide: by a free choice a part of its clocks passes first, and an interrupt that is accepted then
interrupts it (40_arithmetic.md R245, D13). A PEC request that is accepted then is served where 60_exceptions.md R545 has
it, at an instruction boundary: the one in front of the instruction, of which nothing has been done yet. That is also the
cycle that 20_memory.md R152 lets it steal from the multiply (log 56). -/
def State.runMul (s : State) (i : Instr) (m : MulInstr) : Result :=
  if s.mulOpen && Config.freeBool .interruptMul s.free 0 then
    let u := State.clocks (Config.freeNat .partClocks s.free 0) s
    match u.service with
    | .interrupt ic vec level => u.inject (interruptMul ic vec level m)
    | .tie => .refused .samePriority
    | .pec ic ch => u.injectPec ic ch
    | .none => u.runPlain i
  else s.runPlain i

/-- Run a decoded instruction. After RETI with MULIP set only a multiply or divide may follow (U20). -/
def State.runDecoded (s : State) (i : Instr) : Result :=
  match mulInstr i with
  | some m => s.runMul i m
  | none => if s.sys.resume then .refused .resumeMulDiv else s.runPlain i

/-- An undefined opcode or a damaged protected instruction: nothing of it happens but its trap flag (60_exceptions.md
R551). Where the trap cannot be entered the step is refused (U21). DESIGN CHOICE (log 64): the cancelled instruction does
not use up the one-instruction deferral of a stack trap (R555, R556). -/
def State.illegal (s : State) (mask : Word) : Result :=
  let t := { s.raise mask with sys := { (s.raise mask).sys with waiting := false } }
  if s.sys.inA || s.sys.inB || t.sys.treq &&& mask = 0 then .refused .heldClassBTrap else .next t.elapse

/-- A fetch without a bus: ILLBUS, with the address after it as the next one (R564, D20). DESIGN CHOICE (log 46): where
the second word of an instruction has none, that is the address of the second word, as for the first. Nor does the
cancelled instruction use up the deferral of a stack trap: DESIGN CHOICE (log 64); nor, where a running routine holds its trap
and the program goes on, does it count as an instruction of a locked sequence (49_system.md R460) or in the other delays
that count instructions: DESIGN CHOICE (log 84). -/
def State.fetchError (s : State) : State :=
  let t := ((s.raise tfrIllbus).advance 2).elapse
  { t with sys := { t.sys with roundDone := false, waiting := false } }

/-- Fetch, decode and run the next instruction, in the state that the fetch leaves: only the record of the bus differs. An odd
address is reached only if ILLINA could not be entered (U21). -/
def State.runNext (s : State) : Result :=
  if wbit s.core.ip 0 then .refused .heldClassBTrap
  else
    match fetch s with
    | .error (.wait w) => .next (s.stall w)
    | .error (.fault f) => .fault f
    | .error (.refused r) => .refused r
    | .ok (none, u) => .next u.fetchError
    | .ok (some bytes, u) =>
      match decode bytes with
      | .instr i _ => u.runDecoded i
      | .undefinedOpcode => u.illegal tfrUndopc
      | .protectionFault => u.illegal tfrPrtflt
      | .reserved => .refused .reservedEncoding
      | .truncated => .refused .reservedEncoding

/-! ## The instruction boundary -/

/-- A unit is in a state the spec does not define (U29, U31, U32, U33), or another bus master wrote to the CAN module what
it does not define (U36, U39). -/
def State.unitStop (s : State) : Option Refusal :=
  if s.gptReserved || s.ascReserved || s.sscReserved then some .reservedMode
  else if s.ssc.autoReset then some .sscAutoReset
  else if s.adcBadInjection then some .adcInjectionMode
  else if s.adc.badClock then some .adcReservedClock
  else s.can.badWrite

/-- A round may be made at this boundary (60_exceptions.md R501, R546). -/
def State.roundOpen (s : State) : Bool :=
  !s.sys.roundDone && s.sys.ext.count == 0 &&
    (s.sys.retiDelay == 0 || (s.sys.retiDelay == 1 && !Config.freeBool .secondAfterReti s.free 0))

/-- Power down: the clocks stand still; the next event of the environment happens (49_system.md R453). -/
def State.asleep (s : State) : State :=
  match s.env.inbox with
  | [] => s
  | (_, e) :: l =>
    let t := s.eventAsleep e
    { t with env := { t.env with inbox := l } }

/-- Waiting for the host of the bootstrap loader (61_peripherals_a.md R661). -/
def State.loading (s : State) : State :=
  match s.env.inbox with
  | (_, .boot bytes brl) :: l =>
    let t := s.boot bytes brl
    { t with env := { t.env with inbox := l }, free := t.free + 1 }
  | _ => s.asleep

/-- The CPU runs again. -/
def State.awake (s : State) : State :=
  { s with sys := { s.sys with cpu := .running, idleLocked := false, nmiEdge := false } }

/-- Something ends idle mode (R452 (a)): an enabled request, an NMI edge, also one whose flag was set already
(60_exceptions.md R552), or a trap. -/
def State.wakes (s : State) : Bool := s.anyRequest || s.sys.nmiEdge || wbit s.sys.treq 15 || s.trapDue.isSome

/-- One step of idle mode (49_system.md R452). Where IDLE was part of a locked sequence nothing is serviced (f). DESIGN
CHOICE (log 65): when time passes in idle mode, the arbitration history of a PSW write is dropped. -/
def State.idleStep (s : State) : Result :=
  if s.wakes then
    if !s.sys.idleLocked then
      match s.trapDue with
      | some (n, mask, classA) => s.awake.inject (takeTrap n mask classA)
      | none =>
        match s.service with
        | .none => .next s.awake
        | .tie => .refused .samePriority
        | .pec ic ch => (if s.sys.nmiEdge then s.awake else s).injectPec ic ch
        | .interrupt ic vec level => s.awake.inject (takeInterrupt ic vec level)
    else .next s.awake
  else
    let t := s.elapse
    .next { t with sys := { t.sys with pswHist := none } }

/-- The round at a boundary of the running program; a request may be taken here or later (R501, D7). -/
def State.roundStep (s : State) : Option Result :=
  if s.roundOpen then
    match s.service with
    | .none => none
    | .tie => some (.refused .samePriority)
    | .pec ic ch => if Config.freeBool .takeRequest s.free 0 then some (s.injectPec ic ch) else none
    | .interrupt ic vec level =>
      if Config.freeBool .takeRequest s.free 0 then some (s.inject (takeInterrupt ic vec level)) else none
  else none

/-- Traps and interrupts before the next instruction of a running program; an instruction that waits for the bus goes
on first. -/
def State.runBoundary (s : State) : Option Result :=
  if s.sys.waiting then none
  else
    match s.trapDue with
    | some (n, mask, classA) => some (s.inject (takeTrap n mask classA))
    | none => s.roundStep

/-- What is done with the peripherals in order and no reset due: a waiting PEC transfer first, then what `next` says. -/
def State.attend (s : State) (next : Option Result) : Option Result :=
  match s.unitStop with
  | some r => some (.refused r)
  | none =>
    match s.sys.pecWait with
    | some (ic, ch) => some (s.injectPec ic ch)
    | none => next

/-- What happens at the boundary instead of the next instruction, none where that follows (R501). -/
def State.boundary (s : State) : Option Result :=
  match s.sys.resetReq with
  | some source => some (s.doReset source)
  | none =>
    match s.sys.cpu with
    | .powerDown => some (.next s.asleep)
    | .bootLoader => some (.next s.loading)
    | .idle => s.attend (some s.idleStep)
    | .running => s.attend s.runBoundary

end Sys2Proof.Machine
end

