-- ==== Sys2Proof/Machine/Step.lean ====
section
/-! DEFINITION. One step of the machine, and the placing of an instruction where the next step fetches it. -/
namespace Sys2Proof.Machine

/-- One step: what is due at the instruction boundary, or the next instruction (60_exceptions.md R501). -/
def step (s : State) : Host.Outcome State Fault Refusal :=
  match s.boundary with
  | some r => r
  | none => s.runNext

/-- `s` with the bytes of an instruction, bits above `nbits` zero, at the program counter. -/
def State.withFetchWord (s : State) (nbits w : Nat) : State :=
  s.placeCode s.core.ip (bytesOfNat 4 (w % 2 ^ nbits))

end Sys2Proof.Machine
end

