-- ==== Sys2Proof/Safety.lean ====
section
/-! DEFINITION. The terms in which claims about the machine are made: what a register or a byte of memory holds, when
an operand can be accessed, what two states share, and the invariant of every step. -/
namespace Sys2Proof.Machine

/-! ## General purpose registers -/

/-- The register bank lies in the internal RAM (10_state.md R25). -/
def State.bank (s : State) : Bool := decide (0xF600 ≤ s.effCp.toNat ∧ s.effCp.toNat + 32 ≤ 0xFE00)

/-- The cell of Rn (10_state.md R21). -/
def State.gprAt (s : State) (n : Gpr) : Nat := iramCell (s.effCp.toNat + 2 * n.toNat)

/-- The cell of a byte GPR (R22). -/
def State.gprBAt (s : State) (n : Gpr) : Nat := iramCell (s.effCp.toNat + n.toNat)

/-- Rn. -/
def State.gpr (s : State) (n : Gpr) : Word := s.mem.getWord (s.gprAt n)

/-- The byte GPR with number n. -/
def State.gprB (s : State) (n : Gpr) : Byte := s.mem.get (s.gprBAt n)

/-! ## Operands -/

/-- The register behind a short address (11_sfr_map.md R80, R81). -/
def State.regNum (s : State) (reg : Byte) : Sfr := Sfr.ofReg s.sys.ext.esfr reg

/-- A register exists: it is listed, and not in the reserved words 00'F000h to 00'F01Eh (R87, R89). -/
def Sfr.present (r : Sfr) : Bool := decide (16 ≤ r.val) && r.row?.isSome

/-- The area that a physical address lies in. -/
def State.areaAt (s : State) (p : Addr) : Area := areaOf s.env.device s.effMap p

/-- The cell that an access to a physical address reaches, where plain memory answers: internal RAM, XRAM, internal ROM,
or external memory whose bus is free (20_memory.md R106). -/
def State.cellAt (s : State) (writes : Bool) (p : Addr) : Option Nat :=
  match s.areaAt p with
  | .iram => some (iramCell p.toNat)
  | .xram => some (xramCell p.toNat)
  | .rom off => some (romCell off)
  | .ext x => if s.busBlocked s.effMap x then none else some (s.extCell s.effMap x writes p)
  | _ => none

/-- The cell that a write reaches: the internal ROM cannot be written (R107). -/
def State.writableAt (s : State) (p : Addr) : Option Nat :=
  match s.areaAt p with
  | .rom _ => none
  | _ => s.cellAt true p

/-- The cell that a write to a 16-bit data address reaches. -/
def State.writeCell (s : State) (a : Word) : Option Nat := s.writableAt (s.dataAddr a)

/-- The state in which an access to a physical address has shown itself on the bus lines (61_peripherals_a.md R635): only
`State.bus` differs. -/
def State.shown (s : State) (p : Addr) (c : Access) (k : Nat) : State := s.access (s.areaAt p) p c k

/-- The data address is even (R104). -/
def State.even (s : State) (a : Word) : Bool := decide ((s.dataAddr a).toNat % 2 = 0)

/-- The cell of the stack word at SP value `sp`, where the stack lies in the internal RAM (10_state.md R47, R55). -/
def State.stackAt (s : State) (sp : Word) : Option Nat :=
  match stackBits (fieldNat s.effMap.syscon 13 3) with
  | none => none
  | some k =>
    let a := (stackAddr k sp).toNat
    if 0xF600 ≤ a ∧ a < 0xFE00 then some (iramCell a) else none

/-- SP one word lower (R52). -/
def State.spDown (s : State) : Word := stackNorm (s.core.sp - 2)

/-- The state after a push of `v` to cell `k` (46_stack.md R390). -/
def State.pushed (s : State) (k : Nat) (v : Word) : State :=
  let t := (s.storeWord k v).setSp s.spDown
  if s.spDown < s.core.stkov then t.raise tfrStkof else t

/-- The state after a pop (46_stack.md R391). -/
def State.popped (s : State) : State :=
  let sp := stackNorm (s.effSp + 2)
  let t := { s.setSp sp with sys := { s.sys with lag := { s.sys.lag with sp := none } } }
  if s.core.stkun < sp then t.raise tfrStkuf else t

/-! ## What two states share -/

/-- The state without what every instruction may change: IP, the flags, memory, what the bus lines show, and the record of
the stored cells. -/
def State.blank (s : State) : State :=
  { s with
    core := { s.core with ip := 0, psw := s.core.psw &&& 0xFFE0 }
    mem := []
    bus := Bus.reset 0
    sys := { s.sys with crossed := false, stored := [], cacheStored := [] } }

/-- `t` is `u` but for IP, the flags, the lines of the external bus, and the bytes in `cells`: every register, every special register, every latch of
every unit, and every other byte of memory reads the same. -/
def Agree (u t : State) (cells : List Nat) : Prop :=
  t.blank = u.blank ∧ ∀ k, k ∉ cells → t.mem.get k = u.mem.get k

/-- The two cells of a word. -/
def wordCells (k : Nat) : List Nat := [k, k + 1]

/-- From `u`, an instruction of `len` bytes left `t` with the flags `f`, `r` in the word at cell `k`, and nothing else
changed. -/
def WordWritten (u t : State) (k : Nat) (r : Word) (f : Flags) (len : Nat) : Prop :=
  t.mem.getWord k = r ∧ t.core.psw = withFlags u.core.psw f ∧ t.core.ip = u.core.ip + BitVec.ofNat 16 len ∧
    Agree u t (wordCells k)

/-- The same for a byte. -/
def ByteWritten (u t : State) (k : Nat) (r : Byte) (f : Flags) (len : Nat) : Prop :=
  t.mem.get k = r ∧ t.core.psw = withFlags u.core.psw f ∧ t.core.ip = u.core.ip + BitVec.ofNat 16 len ∧
    Agree u t [k]

/-- From `u`, an instruction of `len` bytes left `t` with the flags `f` and nothing else changed. -/
def FlagsWritten (u t : State) (f : Flags) (len : Nat) : Prop :=
  t.core.psw = withFlags u.core.psw f ∧ t.core.ip = u.core.ip + BitVec.ofNat 16 len ∧ Agree u t []

/-! ## Operands with everything an access may do -/

/-- The higher byte of a word of the CAN module. -/
def canHigh (k : Fin 256) : Fin 256 := ⟨(k.val + 1) % 256, Nat.mod_lt _ (by omega)⟩

/-- What a word read at a physical address delivers and leaves; none where it stops or waits. An odd address raises
ILLOPA, an address without a bus ILLBUS, and both deliver a free value (20_memory.md R104, 60_exceptions.md R564), as does
the absent ROM in bootstrap loader mode (61_peripherals_a.md R662). -/
def State.wordIn (s : State) (p : Addr) : Option (Word × State) :=
  if p.toNat % 2 = 1 then some (Config.freeWord .oddRead s.free p.toNat, s.raise tfrIllopa)
  else
    match s.areaAt p with
    | .sfr r => if r.present then some (s.sfrValue r, s.afterSfrRead r) else none
    | .can k =>
      let t := s.shown p (.read true) 0
      some (mkWord (s.canRead k) (s.canRead (canHigh k)), if (canHigh k).val = 1 then t.canReadStatus else t)
    | .noBus => some (Config.freeWord .busErrorRead s.free p.toNat, s.raise tfrIllbus)
    | .romAbsent => if s.sys.bslMode then some (Config.freeWord .busErrorRead s.free p.toNat, s) else none
    | _ => (s.cellAt false p).map (fun k => (s.mem.getWord k, s.shown p (.read true) k))

/-- What a byte read at a physical address delivers and leaves. -/
def State.byteIn (s : State) (p : Addr) : Option (Byte × State) :=
  match s.areaAt p with
  | .sfr r =>
    if r.present then
      some (if p.toNat % 2 = 1 then hiByte (s.sfrValue r) else loByte (s.sfrValue r), s.afterSfrRead r)
    else none
  | .can k =>
    let t := s.shown p (.read false) 0
    some (s.canRead k, if k.val = 1 then t.canReadStatus else t)
  | .noBus => some (loByte (Config.freeWord .busErrorRead s.free p.toNat), s.raise tfrIllbus)
  | .romAbsent => if s.sys.bslMode then some (loByte (Config.freeWord .busErrorRead s.free p.toNat), s) else none
  | _ => (s.cellAt false p).map (fun k => (s.mem.get k, s.shown p (.read false) k))

/-- A word read at a 16-bit data address. -/
def State.wordAt (s : State) (a : Word) : Option (Word × State) := s.wordIn (s.dataAddr a)

/-- A byte read at a 16-bit data address. -/
def State.byteAt (s : State) (a : Word) : Option (Byte × State) := s.byteIn (s.dataAddr a)

/-- A write to register `r`; none where the spec gives it no effect. -/
def State.sfrStored (s : State) (r : Sfr) (v : Word) : Option State :=
  if r.present && (s.sfrRefusal r).isNone then some (s.storeSfr r v 0xFFFF) else none

/-- A write of bytes to the CAN module. -/
def State.canStored (s : State) (bytes : List (Fin 256 × Byte)) : Option State :=
  if (bytes.findSome? (fun b => s.canRefusal b.1 b.2)).isNone then
    some (bytes.foldl (fun t b => t.canWriteByte b.1 b.2) s).canUpdate
  else none

/-- The state after a word write at a physical address; none where it stops or waits. -/
def State.wordInto (s : State) (p : Addr) (v : Word) : Option State :=
  if p.toNat % 2 = 1 then some (s.raise tfrIllopa)
  else
    match s.areaAt p with
    | .sfr r => s.sfrStored r v
    | .can k => (s.shown p (.ofWord v) 0).canStored [(k, loByte v), (canHigh k, hiByte v)]
    | .noBus => some (s.raise tfrIllbus)
    | _ => (s.writableAt p).map (fun k => (s.shown p (.ofWord v) k).storeWord k v)

/-- The state after a byte write at a physical address. In a register the other byte is cleared (10_state.md R62 (a)). -/
def State.byteInto (s : State) (p : Addr) (v : Byte) : Option State :=
  match s.areaAt p with
  | .sfr r => s.sfrStored r (if p.toNat % 2 = 1 then mkWord 0 v else mkWord v 0)
  | .can k => (s.shown p (.ofByte v) 0).canStored [(k, v)]
  | .noBus => some (s.raise tfrIllbus)
  | _ => (s.writableAt p).map (fun k => (s.shown p (.ofByte v) k).storeCell k v)

/-- A word write at a 16-bit data address. -/
def State.wordStored (s : State) (a v : Word) : Option State := s.wordInto (s.dataAddr a) v

/-- A byte write at a 16-bit data address. -/
def State.byteStored (s : State) (a : Word) (v : Byte) : Option State := s.byteInto (s.dataAddr a) v

/-- What a `reg` operand reads as (30_encoding.md R166). -/
def State.regWord (s : State) (q : Byte) : Option (Word × State) :=
  if isGprCode q then (if s.bank then some (s.gpr (gprOfCode q), s) else none)
  else if (s.regNum q).present then some (s.sfrValue (s.regNum q), s.afterSfrRead (s.regNum q)) else none

/-- What a byte `reg` operand reads as. -/
def State.regByte (s : State) (q : Byte) : Option (Byte × State) :=
  if isGprCode q then (if s.bank then some (s.gprB (gprOfCode q), s) else none)
  else if (s.regNum q).present then some (loByte (s.sfrValue (s.regNum q)), s.afterSfrRead (s.regNum q)) else none

/-- The state after a write to a `reg` operand. -/
def State.regWordStored (s : State) (q : Byte) (v : Word) : Option State :=
  if isGprCode q then (if s.bank then some (s.storeWord (s.gprAt (gprOfCode q)) v) else none)
  else s.sfrStored (s.regNum q) v

/-- The state after a write to a byte `reg` operand; the high byte of a register becomes 0 (20_memory.md R130). -/
def State.regByteStored (s : State) (q v : Byte) : Option State :=
  if isGprCode q then (if s.bank then some (s.storeCell (s.gprBAt (gprOfCode q)) v) else none)
  else s.sfrStored (s.regNum q) (mkWord v 0)

/-- The cell a bit operand names, where that is a word of memory (30_encoding.md R170). -/
def State.bitCell (s : State) (b : Byte) : Option Nat :=
  if b.toNat < 0x80 then some (iramCell (0xFD00 + 2 * b.toNat))
  else if isGprCode b then (if s.bank then some (s.gprAt (gprOfCode b)) else none)
  else none

/-- What the word of a bit operand reads as. -/
def State.bitWord (s : State) (b : Byte) : Option (Word × State) :=
  if b.toNat < 0x80 ∨ isGprCode b then (s.bitCell b).map (fun k => (s.mem.getWord k, s))
  else if (s.regNum b).present then some (s.sfrValue (s.regNum b), s.afterSfrRead (s.regNum b)) else none

/-- The state after the write-back of a bit operand: the whole word, but in a register with protected bits only the bits
`named` (20_memory.md R133, R134); the register is noted for the race with the hardware. -/
def State.bitStored (s : State) (b : Byte) (v named : Word) : Option State :=
  if b.toNat < 0x80 ∨ isGprCode b then (s.bitCell b).map (fun k => s.storeWord k v)
  else
    let r := s.regNum b
    let w := s.writtenBack r v named
    if r.present && (s.sfrRefusal r).isNone then
      some ((s.storeSfr r w (r.backMask named)).noteRmw r (r.bitLost named))
    else none

/-! ## The same for both operand widths -/

/-- Everything a claim says about operands of one width. -/
structure View (w : Nat) where
  gpr : State → Gpr → BitVec w
  gprAt : State → Gpr → Nat
  /-- the cell of a memory destination, where that is plain memory -/
  cell : State → Word → Option Nat
  readAt : State → Word → Option (BitVec w × State)
  stored : State → Word → BitVec w → Option State
  regAt : State → Byte → Option (BitVec w × State)
  regStored : State → Byte → BitVec w → Option State
  /-- what memory holds at a cell -/
  held : Memory → Nat → BitVec w
  cells : Nat → List Nat
  Written : State → State → Nat → BitVec w → Flags → Nat → Prop
  /-- the step of an auto-modified pointer -/
  step : Word
  /-- the data register lies in the pointer register (U18) -/
  within : Gpr → Gpr → Bool
  /-- the free value of such a data register -/
  aliased : State → BitVec w

/-- Word operands. -/
def wordView : View 16 where
  gpr := State.gpr
  gprAt := State.gprAt
  cell := fun s a => if s.even a then s.writeCell a else none
  readAt := State.wordAt
  stored := State.wordStored
  regAt := State.regWord
  regStored := State.regWordStored
  held := Memory.getWord
  cells := wordCells
  Written := WordWritten
  step := 2
  within := fun n p => n == p
  aliased := fun s => Config.freeWord .pointerAlias s.free 0

/-- Byte operands. -/
def byteView : View 8 where
  gpr := State.gprB
  gprAt := State.gprBAt
  cell := State.writeCell
  readAt := State.byteAt
  stored := State.byteStored
  regAt := State.regByte
  regStored := State.regByteStored
  held := Memory.get
  cells := fun k => [k]
  Written := ByteWritten
  step := 1
  within := fun n p => n >>> 1 == p
  aliased := fun s => loByte (Config.freeWord .pointerAlias s.free 0)

/-- `d` added to the word register `p`. -/
def State.bump (s : State) (p : Gpr) (d : Word) : State := s.storeWord (s.gprAt p) (s.gpr p + d)

/-- What follows the write of a `reg` destination: nothing after a move; after an ALU instruction the check of SP
(40_arithmetic.md R241) and the note of a read-modify-write (20_memory.md R135). -/
def State.afterReg (s : State) (reg : Byte) (c : Option SpCheck) : State :=
  match c with
  | none => s
  | some c => s.aluReg c reg

/-- The same for a destination in memory of `w` bits, addressed in the state `u`. -/
def State.afterMem (s u : State) (c : Option SpCheck) (w : Nat) (a : Word) : State :=
  match c with
  | none => s
  | some c => s.aluMem u c w a

/-- Instruction `i` from `s`, with its operands read in `u`, ends with `v` in the operand `reg` and the flags `f`: a GPR
takes it and nothing else changes; any destination is written as `regStored` says. -/
def RegDone {w : Nat} (V : View w) (i : Instr) (s u : State) (reg : Byte) (v : BitVec w) (f : Flags)
    (c : Option SpCheck) (len : Nat) : Prop :=
  (isGprCode reg = true → u.bank = true →
    ∃ t, exec i s = .next t ∧ V.Written u t (V.gprAt u (gprOfCode reg)) v f len) ∧
  (∀ t, V.regStored (u.withFlags f) reg v = some t → exec i s = .next ((t.afterReg reg c).advance len))

/-- Instruction `i` from `s`, with its operands read in `u`, ends with `v` at the data address `a` and the flags `f`: plain
memory takes it and nothing else changes; any destination is written as `stored` says. -/
def MemDone {w : Nat} (V : View w) (i : Instr) (s u : State) (a : Word) (v : BitVec w) (f : Flags)
    (c : Option SpCheck) (len : Nat) : Prop :=
  (∀ k, V.cell u a = some k → ∃ t, exec i s = .next t ∧ V.Written u t k v f len) ∧
  (∀ t, V.stored (u.withFlags f) a v = some t →
    exec i s = .next ((t.afterMem (u.withFlags f) c w a).advance len))

/-- Instruction `i` from `s`, with its operands read in `u`, ends with the word `v` written back to the bit operand `b`,
the bits `named` being those it means, and the flags `f`. -/
def BitDone (i : Instr) (s u : State) (b : Byte) (v named : Word) (f : Flags) (len : Nat) : Prop :=
  (∀ k, u.bitCell b = some k → ∃ t, exec i s = .next t ∧ WordWritten u t k v f len) ∧
  (∀ t, (u.withFlags f).bitStored b v named = some t → exec i s = .next (t.advance len))

/-! ## The forms of the instructions -/

/-- `Rwn, Rwm` of an ALU instruction (40_arithmetic.md R220). -/
def AluRR {w : Nat} (V : View w) (f : Alu w) (i : Gpr → Gpr → Instr) : Prop :=
  ∀ s rn rm, s.bank = true → ∃ t, exec (i rn rm) s = .next t ∧
    V.Written s t (V.gprAt s rn) (f s.core.psw (V.gpr s rn) (V.gpr s rm)).1
      (f s.core.psw (V.gpr s rn) (V.gpr s rm)).2 2

/-- `Rwn, #data3`. -/
def AluR3 {w : Nat} (V : View w) (f : Alu w) (i : Gpr → BitVec 3 → Instr) : Prop :=
  ∀ s rn d, s.bank = true → ∃ t, exec (i rn d) s = .next t ∧
    V.Written s t (V.gprAt s rn) (f s.core.psw (V.gpr s rn) (d.setWidth w)).1
      (f s.core.psw (V.gpr s rn) (d.setWidth w)).2 2

/-- `Rwn, [Rwi]`, op2 read in any area. -/
def AluRI {w : Nat} (V : View w) (f : Alu w) (i : Gpr → BitVec 2 → Instr) : Prop :=
  ∀ s rn ri b u, s.bank = true → V.readAt s (s.gpr (pointerOf ri)) = some (b, u) →
    ∃ t, exec (i rn ri) s = .next t ∧
      V.Written u t (V.gprAt u rn) (f u.core.psw (V.gpr u rn) b).1 (f u.core.psw (V.gpr u rn) b).2 2

/-- `Rwn, [Rwi+]`: the pointer is incremented after the read. Where it is also the data register, op1 and what the pointer
ends with are free (U18). -/
def AluRIP {w : Nat} (V : View w) (f : Alu w) (i : Gpr → BitVec 2 → Instr) : Prop :=
  ∀ s rn ri b r, s.bank = true → V.readAt s (s.gpr (pointerOf ri)) = some (b, r) →
    let u := r.bump (pointerOf ri) V.step
    (V.within rn (pointerOf ri) = false → ∃ t, exec (i rn ri) s = .next t ∧
      V.Written u t (V.gprAt u rn) (f u.core.psw (V.gpr u rn) b).1 (f u.core.psw (V.gpr u rn) b).2 2) ∧
    (V.within rn (pointerOf ri) = true → ∃ t, exec (i rn ri) s = .next t ∧
      WordWritten u t (u.gprAt (pointerOf ri)) (Config.freeWord .pointerAlias u.free 1)
        (f u.core.psw (V.aliased u) b).2 2)

/-- `reg, #data`. -/
def AluRegImm {w : Nat} (V : View w) (f : Alu w) (c : SpCheck) (i : Byte → BitVec w → Instr) : Prop :=
  ∀ s reg d a u, V.regAt s reg = some (a, u) →
    RegDone V (i reg d) s u reg (f u.core.psw a d).1 (f u.core.psw a d).2 (some c) 4

/-- `reg, mem`. -/
def AluRegMem {w : Nat} (V : View w) (f : Alu w) (c : SpCheck) (i : Byte → Word → Instr) : Prop :=
  ∀ s reg mem b r a u, V.readAt s mem = some (b, r) → V.regAt r reg = some (a, u) →
    RegDone V (i reg mem) s u reg (f u.core.psw a b).1 (f u.core.psw a b).2 (some c) 4

/-- `reg, #data` of an addition or subtraction with SP as the register (40_arithmetic.md R241): SP takes the result with
bits 15-12 at 1 and bit 0 at 0; exactly where it is `beyond` its limit the trap flag `flag` is set, and a flag that was
clear requests its trap, which is held back for one further instruction (60_exceptions.md R555, R556; log 38). -/
def SpLimited (f : Alu 16) (i : Byte → Word → Instr) (flag : Word) (beyond : State → Word → Prop) : Prop :=
  ∀ s q d, isGprCode q = false → s.regNum q = Sfr.sp →
    let sp : Word := 0xF#4 ++ (f s.core.psw s.core.sp d).1.extractLsb' 1 11 ++ 0#1
    ∃ t : State, exec (i q d) s = .next t ∧ t.core.sp = sp ∧
      (¬ beyond s sp → t.core.tfr = s.core.tfr ∧ t.sys.treq = s.sys.treq ∧ t.sys.deferred = s.sys.deferred) ∧
      (beyond s sp → t.core.tfr = s.core.tfr ||| flag ∧
        (flag &&& (s.core.tfr ||| s.sys.treq) = 0 → t.sys.treq = s.sys.treq ||| flag ∧
          (t.settle (i q d)).classAOpen = false ∧ ∀ j, ((t.settle (i q d)).settle j).sys.deferred = 0))

/-- `mem, reg`. -/
def AluMemReg {w : Nat} (V : View w) (f : Alu w) (c : SpCheck) (i : Word → Byte → Instr) : Prop :=
  ∀ s mem reg b r a u, V.regAt s reg = some (b, r) → V.readAt r mem = some (a, u) →
    MemDone V (i mem reg) s u mem (f u.core.psw a b).1 (f u.core.psw a b).2 (some c) 4

/-- The flags of a comparison of `a` with `b`. -/
def cmpFlags {w : Nat} (a b : BitVec w) : Flags := (subWith a b false true).2

/-- `Rwn, Rwm` of a comparison (42_compare_loop.md R280). -/
def CmpRR {w : Nat} (V : View w) (i : Gpr → Gpr → Instr) : Prop :=
  ∀ s rn rm, s.bank = true →
    ∃ t, exec (i rn rm) s = .next t ∧ FlagsWritten s t (cmpFlags (V.gpr s rn) (V.gpr s rm)) 2

/-- `Rwn, #data3`. -/
def CmpR3 {w : Nat} (V : View w) (i : Gpr → BitVec 3 → Instr) : Prop :=
  ∀ s rn d, s.bank = true →
    ∃ t, exec (i rn d) s = .next t ∧ FlagsWritten s t (cmpFlags (V.gpr s rn) (d.setWidth w)) 2

/-- `Rwn, [Rwi]`. -/
def CmpRI {w : Nat} (V : View w) (i : Gpr → BitVec 2 → Instr) : Prop :=
  ∀ s rn ri b u, s.bank = true → V.readAt s (s.gpr (pointerOf ri)) = some (b, u) →
    ∃ t, exec (i rn ri) s = .next t ∧ FlagsWritten u t (cmpFlags (V.gpr u rn) b) 2

/-- `Rwn, [Rwi+]`; where the pointer is also op1, op1 is free (U18). -/
def CmpRIP {w : Nat} (V : View w) (i : Gpr → BitVec 2 → Instr) : Prop :=
  ∀ s rn ri b r, s.bank = true → V.readAt s (s.gpr (pointerOf ri)) = some (b, r) →
    let u := r.bump (pointerOf ri) V.step
    ∃ t, exec (i rn ri) s = .next t ∧
      FlagsWritten u t (cmpFlags (if V.within rn (pointerOf ri) then V.aliased u else V.gpr u rn) b) 2

/-- `reg, #data`. -/
def CmpRegImm {w : Nat} (V : View w) (i : Byte → BitVec w → Instr) : Prop :=
  ∀ s reg d a u, V.regAt s reg = some (a, u) →
    ∃ t, exec (i reg d) s = .next t ∧ FlagsWritten u t (cmpFlags a d) 4

/-- `reg, mem`. -/
def CmpRegMem {w : Nat} (V : View w) (i : Byte → Word → Instr) : Prop :=
  ∀ s reg mem b r a u, V.readAt s mem = some (b, r) → V.regAt r reg = some (a, u) →
    ∃ t, exec (i reg mem) s = .next t ∧ FlagsWritten u t (cmpFlags a b) 4

/-- CMPI1, CMPI2, CMPD1, CMPD2 with the operand `b` read in `u`: Rwn is compared with it and then changed by `d`
(R283 to R286). -/
def CmpStep (i : Instr) (s u : State) (rn : Gpr) (b d : Word) (len : Nat) : Prop :=
  ∃ t, exec i s = .next t ∧ WordWritten u t (u.gprAt rn) (u.gpr rn + d) (cmpFlags (u.gpr rn) b) len

/-- The three operand forms of one of these instructions. -/
def CmpLoop (d : Word) (i4 : Gpr → BitVec 4 → Instr) (i16 iMem : Gpr → Word → Instr) : Prop :=
  (∀ s rn b, s.bank = true → CmpStep (i4 rn b) s s rn (b.setWidth 16) d 2) ∧
  (∀ s rn b, s.bank = true → CmpStep (i16 rn b) s s rn b d 4) ∧
  (∀ s rn mem b u, s.bank = true → s.wordAt mem = some (b, u) → CmpStep (iMem rn mem) s u rn b d 4)

/-- CPL, NEG. -/
def Unary {w : Nat} (V : View w) (f : BitVec w → BitVec w × Flags) (i : Gpr → Instr) : Prop :=
  ∀ s rn, s.bank = true → ∃ t, exec (i rn) s = .next t ∧
    V.Written s t (V.gprAt s rn) (f (V.gpr s rn)).1 (f (V.gpr s rn)).2 2

/-- The two forms of a shift: the count is the low four bits of Rwm, or data (44_shift_prior.md R330). -/
def Shifts (f : Shift) (iR : Gpr → Gpr → Instr) (i4 : Gpr → BitVec 4 → Instr) : Prop :=
  (∀ s rn rm, s.bank = true → ∃ t, exec (iR rn rm) s = .next t ∧
    WordWritten s t (s.gprAt rn) (f (s.gpr rn) ((s.gpr rm).toNat % 16)).1 (f (s.gpr rn) ((s.gpr rm).toNat % 16)).2 2) ∧
  (∀ s rn d, s.bank = true → ∃ t, exec (i4 rn d) s = .next t ∧
    WordWritten s t (s.gprAt rn) (f (s.gpr rn) d.toNat).1 (f (s.gpr rn) d.toNat).2 2)

/-- What a multiply or divide leaves: MDH, MDL, the flags, MDRIU set and the internal bits of MDC free (10_state.md
R58, R59), and nothing else changed. -/
def MdWritten (u t : State) (mdh mdl : Word) (f : Flags) : Prop :=
  t.core.mdh = mdh ∧ t.core.mdl = mdl ∧
    t.core.mdc = 0x10 ||| (Config.freeWord .mdcInternal u.free 0 &&& 0xEF) ∧
    t.core.psw = withFlags u.core.psw f ∧ t.core.ip = u.core.ip + 2 ∧
    Agree { u with core := { u.core with mdh := mdh, mdl := mdl, mdc := t.core.mdc } } t []

/-! ## Moves (45_data_movement.md R350) -/

/-- `Rwn, Rwm`. -/
def MovRR {w : Nat} (V : View w) (i : Gpr → Gpr → Instr) : Prop :=
  ∀ s rn rm, s.bank = true → ∃ t, exec (i rn rm) s = .next t ∧
    V.Written s t (V.gprAt s rn) (V.gpr s rm) (moveFlags s.core.psw (V.gpr s rm)) 2

/-- `Rwn, #data4`. -/
def MovR4 {w : Nat} (V : View w) (i : Gpr → BitVec 4 → Instr) : Prop :=
  ∀ s rn d, s.bank = true → ∃ t, exec (i rn d) s = .next t ∧
    V.Written s t (V.gprAt s rn) (d.setWidth w) (moveFlags s.core.psw (d.setWidth w)) 2

/-- `reg, #data`. -/
def MovRegImm {w : Nat} (V : View w) (i : Byte → BitVec w → Instr) : Prop :=
  ∀ s reg d, RegDone V (i reg d) s s reg d (moveFlags s.core.psw d) none 4

/-- `Rwn, [Rwm]`. -/
def MovRI {w : Nat} (V : View w) (i : Gpr → Gpr → Instr) : Prop :=
  ∀ s rn rm v u, s.bank = true → V.readAt s (s.gpr rm) = some (v, u) → ∃ t, exec (i rn rm) s = .next t ∧
    V.Written u t (V.gprAt u rn) v (moveFlags u.core.psw v) 2

/-- `Rwn, [Rwm+]`; where the pointer is also the destination, what it ends with is free (U18). -/
def MovRIP {w : Nat} (V : View w) (i : Gpr → Gpr → Instr) : Prop :=
  ∀ s rn rm v r, s.bank = true → V.readAt s (s.gpr rm) = some (v, r) →
    let u := r.bump rm V.step
    (V.within rn rm = false → ∃ t, exec (i rn rm) s = .next t ∧
      V.Written u t (V.gprAt u rn) v (moveFlags u.core.psw v) 2) ∧
    (V.within rn rm = true → ∃ t, exec (i rn rm) s = .next t ∧
      WordWritten u t (u.gprAt rm) (Config.freeWord .pointerAlias u.free 1) (moveFlags u.core.psw v) 2)

/-- `[Rwm], Rwn`. -/
def MovIR {w : Nat} (V : View w) (i : Gpr → Gpr → Instr) : Prop :=
  ∀ s rm rn, s.bank = true →
    MemDone V (i rm rn) s s (s.gpr rm) (V.gpr s rn) (moveFlags s.core.psw (V.gpr s rn)) none 2

/-- `[-Rwm], Rwn`: the pointer is decremented before the move; where it is also the source, the moved value is free
(U18). -/
def MovDR {w : Nat} (V : View w) (i : Gpr → Gpr → Instr) : Prop :=
  ∀ s rm rn, s.bank = true →
    let u := s.bump rm (-V.step)
    let v := if V.within rn rm then V.aliased u else V.gpr u rn
    MemDone V (i rm rn) s u (u.gpr rm) v (moveFlags u.core.psw v) none 2

/-- `[Rwn], [Rwm]`. -/
def MovII {w : Nat} (V : View w) (i : Gpr → Gpr → Instr) : Prop :=
  ∀ s rn rm v u, s.bank = true → V.readAt s (s.gpr rm) = some (v, u) →
    MemDone V (i rn rm) s u (u.gpr rn) v (moveFlags u.core.psw v) none 2

/-- `[Rwn], [Rwm+]`: the source pointer is incremented before the destination is addressed. -/
def MovIIP {w : Nat} (V : View w) (i : Gpr → Gpr → Instr) : Prop :=
  ∀ s rn rm v r, s.bank = true → V.readAt s (s.gpr rm) = some (v, r) →
    let u := r.bump rm V.step
    MemDone V (i rn rm) s u (u.gpr rn) v (moveFlags u.core.psw v) none 2

/-- `[Rwn+], [Rwm]`: the destination pointer is incremented after the move. -/
def MovIPI {w : Nat} (V : View w) (i : Gpr → Gpr → Instr) : Prop :=
  ∀ s rn rm v u, s.bank = true → V.readAt s (s.gpr rm) = some (v, u) →
    (∀ k, V.cell u (u.gpr rn) = some k → ∃ t, exec (i rn rm) s = .next t ∧
      t.core.psw = withFlags u.core.psw (moveFlags u.core.psw v) ∧ t.core.ip = u.core.ip + 2 ∧
      ((∀ c, c ∈ V.cells k → c ∉ wordCells (u.gprAt rn)) →
        t.gpr rn = u.gpr rn + V.step ∧ V.held t.mem k = v) ∧
      Agree u t (V.cells k ++ wordCells (u.gprAt rn))) ∧
    (∀ x, V.stored (u.withFlags (moveFlags u.core.psw v)) (u.gpr rn) v = some x → x.bank = true →
      exec (i rn rm) s = .next ((x.bump rn V.step).advance 2))

/-- `Rwn, [Rwm+#data16]`. -/
def MovRX {w : Nat} (V : View w) (i : Gpr → Gpr → Word → Instr) : Prop :=
  ∀ s rn rm d v u, s.bank = true → V.readAt s (s.gpr rm + d) = some (v, u) → ∃ t, exec (i rn rm d) s = .next t ∧
    V.Written u t (V.gprAt u rn) v (moveFlags u.core.psw v) 4

/-- `[Rwm+#data16], Rwn`. -/
def MovXR {w : Nat} (V : View w) (i : Gpr → Word → Gpr → Instr) : Prop :=
  ∀ s rm d rn, s.bank = true →
    MemDone V (i rm d rn) s s (s.gpr rm + d) (V.gpr s rn) (moveFlags s.core.psw (V.gpr s rn)) none 4

/-- `[Rwn], mem`. -/
def MovIMem {w : Nat} (V : View w) (i : Gpr → Word → Instr) : Prop :=
  ∀ s rn mem v u, s.bank = true → V.readAt s mem = some (v, u) →
    MemDone V (i rn mem) s u (u.gpr rn) v (moveFlags u.core.psw v) none 4

/-- `mem, [Rwn]`. -/
def MovMemI {w : Nat} (V : View w) (i : Word → Gpr → Instr) : Prop :=
  ∀ s mem rn v u, s.bank = true → V.readAt s (s.gpr rn) = some (v, u) →
    MemDone V (i mem rn) s u mem v (moveFlags u.core.psw v) none 4

/-- `reg, mem`. -/
def MovRegMem {w : Nat} (V : View w) (i : Byte → Word → Instr) : Prop :=
  ∀ s reg mem v u, V.readAt s mem = some (v, u) →
    RegDone V (i reg mem) s u reg v (moveFlags u.core.psw v) none 4

/-- `mem, reg`. -/
def MovMemReg {w : Nat} (V : View w) (i : Word → Byte → Instr) : Prop :=
  ∀ s mem reg v u, V.regAt s reg = some (v, u) →
    MemDone V (i mem reg) s u mem v (moveFlags u.core.psw v) none 4

/-- The three forms of MOVBS and MOVBZ, with the extension `e` and the flags `f` (R353, R354). -/
def MovExtend (e : Byte → Word) (f : Word → Byte → Flags) (iRR : Gpr → Gpr → Instr) (iRegMem : Byte → Word → Instr)
    (iMemReg : Word → Byte → Instr) : Prop :=
  (∀ s rn rm, s.bank = true → ∃ t, exec (iRR rn rm) s = .next t ∧
    WordWritten s t (s.gprAt rn) (e (s.gprB rm)) (f s.core.psw (s.gprB rm)) 2) ∧
  (∀ s reg mem b u, s.byteAt mem = some (b, u) →
    RegDone wordView (iRegMem reg mem) s u reg (e b) (f u.core.psw b) none 4) ∧
  (∀ s mem reg b u, s.regByte reg = some (b, u) →
    MemDone wordView (iMemReg mem reg) s u mem (e b) (f u.core.psw b) none 4)

/-! ## Bits (43_bit.md) -/

/-- BSET, BCLR. -/
def BitAssigned (v : Bool) (i : Byte → BitVec 4 → Instr) : Prop :=
  ∀ s b q w u, s.bitWord b = some (w, u) →
    BitDone (i b q) s u b (wset w q.toNat v) (bitMask q.toNat) (bitFlags (wbit w q.toNat)) 2

/-- BMOV, BMOVN, BAND, BOR, BXOR: Q is read before Z, a word that holds both once. -/
def BitPaired (fl : Bool → Bool → Flags) (g : Bool → Bool → Bool)
    (i : Byte → BitVec 4 → Byte → BitVec 4 → Instr) : Prop :=
  ∀ s bz z bq q ws r wd u, s.bitWord bq = some (ws, r) →
    (if bz = bq then some (ws, r) else r.bitWord bz) = some (wd, u) →
    BitDone (i bz z bq q) s u bz (wset wd z.toNat (g (wbit wd z.toNat) (wbit ws q.toNat))) (bitMask z.toNat)
      (fl (wbit wd z.toNat) (wbit ws q.toNat)) 4

/-- BFLDH, BFLDL. -/
def BitField (at_ : Byte → Word) (i : Byte → Byte → Byte → Instr) : Prop :=
  ∀ s b mask d w u, s.bitWord b = some (w, u) →
    BitDone (i b mask d) s u b ((w &&& ~~~at_ mask) ||| at_ d) (at_ mask ||| at_ d)
      (fieldFlags ((w &&& ~~~at_ mask) ||| at_ d)) 4

/-! ## Branches -/

/-- The state without what a branch, a call, a return or a trap entry may change: IP, CSP, SP, PSW, TFR and the trap
requests, memory, and what the fetch remembers. -/
def State.steady (s : State) : State :=
  { s with
    core := { s.core with ip := 0, csp := 0, sp := 0, psw := 0, tfr := 0 }
    mem := []
    sys := { s.sys with
      treq := 0, crossed := false, stored := [], cacheStored := [], jumpCache := none, oldMaps := []
      flushed := false, cacheHit := false
      lag := { s.sys.lag with sp := none } } }

/-- The trap flags that a branch to `ip` adds: ILLINA for an odd address (60_exceptions.md R563). -/
def branchFlags (ip : Word) : Word := if wbit ip 0 then tfrIllina else 0

/-- From `u` an instruction of `len` bytes left `t` and changed nothing but IP. -/
def Passed (u t : State) (len : Nat) : Prop :=
  t.core.psw = u.core.psw ∧ t.core.ip = u.core.ip + BitVec.ofNat 16 len ∧ Agree u t []

/-- From `u` a branch left `t`: IP is `ip`, CSP `csp`; SP, the flags and memory are as they were, and nothing else is
changed but what the fetch remembers. -/
def Branched (u t : State) (csp : Byte) (ip : Word) : Prop :=
  t.core.ip = ip ∧ t.core.csp = csp ∧ t.core.sp = u.core.sp ∧ t.core.psw = u.core.psw ∧
    t.core.tfr = u.core.tfr ||| branchFlags ip ∧ t.mem = u.mem ∧ t.steady = u.steady

/-- The stack overflow flag of a push that left SP at `sp` (46_stack.md R390). -/
def pushFlags (s : State) (sp : Word) : Word := if sp < s.core.stkov then tfrStkof else 0

/-- The stack underflow flag of a pop that left SP at `sp` (R391). -/
def popFlags (s : State) (sp : Word) : Word := if s.core.stkun < sp then tfrStkuf else 0

/-- From `u` a call left `t`: `ret` stands in the stack word at cell `k`, SP is one word lower, IP and CSP are the
target, and every other byte of memory and every other register is as it was. -/
def Called (u t : State) (k : Nat) (ret : Word) (csp : Byte) (ip : Word) : Prop :=
  t.mem.getWord k = ret ∧ t.core.sp = u.spDown ∧ t.core.ip = ip ∧ t.core.csp = csp ∧ t.core.psw = u.core.psw ∧
    t.core.tfr = u.core.tfr ||| pushFlags u u.spDown ||| branchFlags ip ∧
    (∀ c, c ∉ wordCells k → t.mem.get c = u.mem.get c) ∧ t.steady = u.steady

/-- Two words lower than SP. -/
def State.spDown2 (s : State) : Word := stackNorm (s.spDown - 2)

/-- Three words lower than SP. -/
def State.spDown3 (s : State) : Word := stackNorm (s.spDown2 - 2)

/-- From `u` an instruction pushed `first` and then `second` to the cells `k1`, `k2` and went to `csp`, `ip` with the PSW
`psw`. -/
def Called2 (u t : State) (k1 k2 : Nat) (first second : Word) (csp : Byte) (ip psw : Word) : Prop :=
  t.mem.getWord k1 = first ∧ t.mem.getWord k2 = second ∧ t.core.sp = u.spDown2 ∧ t.core.ip = ip ∧
    t.core.csp = csp ∧ t.core.psw = psw ∧
    t.core.tfr = u.core.tfr ||| pushFlags u u.spDown ||| pushFlags u u.spDown2 ||| branchFlags ip ∧
    (∀ c, c ∉ wordCells k1 ++ wordCells k2 → t.mem.get c = u.mem.get c) ∧ t.steady = u.steady

/-- From `u` an entry pushed `first`, `second`, `third` to the cells `k1`, `k2`, `k3` and went to `csp`, `ip` with the PSW
`psw`. -/
def Called3 (u t : State) (k1 k2 k3 : Nat) (first second third : Word) (csp : Byte) (ip psw : Word) : Prop :=
  t.mem.getWord k1 = first ∧ t.mem.getWord k2 = second ∧ t.mem.getWord k3 = third ∧ t.core.sp = u.spDown3 ∧
    t.core.ip = ip ∧ t.core.csp = csp ∧ t.core.psw = psw ∧
    t.core.tfr = u.core.tfr ||| pushFlags u u.spDown ||| pushFlags u u.spDown2 ||| pushFlags u u.spDown3 |||
      branchFlags ip ∧
    (∀ c, c ∉ wordCells k1 ++ wordCells k2 ++ wordCells k3 → t.mem.get c = u.mem.get c) ∧ t.steady = u.steady

/-- SP after one pop. -/
def State.spUp (s : State) : Word := stackNorm (s.effSp + 2)

/-- SP after two pops. -/
def State.spUp2 (s : State) : Word := stackNorm (s.spUp + 2)

/-- SP after three pops. -/
def State.spUp3 (s : State) : Word := stackNorm (s.spUp2 + 2)

/-- From `u` a return left `t`: IP and CSP are what was popped, SP is `sp`, `flags` are the underflow flags of its pops;
the PSW, memory and every other register are as they were. -/
def Returned (u t : State) (csp : Byte) (ip sp flags : Word) : Prop :=
  t.core.ip = ip ∧ t.core.csp = csp ∧ t.core.sp = sp ∧ t.core.psw = u.core.psw ∧
    t.core.tfr = u.core.tfr ||| flags ||| branchFlags ip ∧ t.mem = u.mem ∧ t.steady = u.steady

/-! ## What the flag computations mean -/

/-- The carry that goes into an operation. -/
def carryIn (carry : Bool) (psw : Word) : Nat := if carry then (wbit psw 1).toNat else 0

/-- The flags of an operation on `b` with result `r`, of which `exact` is the value as signed numbers and `carries` tells
whether the carry or borrow happened (10_state.md R36 to R40, 40_arithmetic.md R240). -/
def FlagsMean {w : Nat} (carry : Bool) (psw : Word) (b r : BitVec w) (exact : Int) (carries : Prop) (f : Flags) : Prop :=
  (f.e = true ↔ b.toInt = -2 ^ (w - 1)) ∧ (f.z = true ↔ r = 0 ∧ (carry = true → wbit psw 3 = true)) ∧
    (f.v = true ↔ r.toInt ≠ exact) ∧ (f.c = true ↔ carries) ∧ (f.n = true ↔ r.toInt < 0)

/-- The operation adds. -/
def AddMeans {w : Nat} (f : Alu w) (carry : Bool) : Prop :=
  ∀ psw a b, (f psw a b).1 = a + b + BitVec.ofNat w (carryIn carry psw) ∧
    FlagsMean carry psw b (f psw a b).1 (a.toInt + b.toInt + carryIn carry psw)
      (2 ^ w ≤ a.toNat + b.toNat + carryIn carry psw) (f psw a b).2

/-- The operation subtracts. -/
def SubMeans {w : Nat} (f : Alu w) (carry : Bool) : Prop :=
  ∀ psw a b, (f psw a b).1 = a - b - BitVec.ofNat w (carryIn carry psw) ∧
    FlagsMean carry psw b (f psw a b).1 (a.toInt - b.toInt - carryIn carry psw)
      (a.toNat < b.toNat + carryIn carry psw) (f psw a b).2

/-- The operation acts on each bit, with the flags of a logical operation (41_logical.md R260). -/
def LogicMeans {w : Nat} (f : Alu w) (g : Bool → Bool → Bool) : Prop :=
  ∀ psw a b, (∀ i : Nat, i < w → (f psw a b).1.getLsbD i = g (a.getLsbD i) (b.getLsbD i)) ∧
    ((f psw a b).2.e = true ↔ b.toInt = -2 ^ (w - 1)) ∧ ((f psw a b).2.z = true ↔ (f psw a b).1 = 0) ∧
    (f psw a b).2.v = false ∧ (f psw a b).2.c = false ∧ ((f psw a b).2.n = true ↔ (f psw a b).1.toInt < 0)

/-- The flags of a right shift or rotate by `k` (44_shift_prior.md R330): C is the bit shifted out last, V tells whether
a 1 was shifted out before it. -/
def RightMeans (f : Shift) : Prop :=
  ∀ a : Word, ∀ k : Nat, k < 16 →
    ((f a k).2.c = true ↔ 0 < k ∧ a.getLsbD (k - 1) = true) ∧
    ((f a k).2.v = true ↔ ∃ j, j + 1 < k ∧ a.getLsbD j = true) ∧
    (f a k).2.e = false ∧ ((f a k).2.z = true ↔ (f a k).1 = 0) ∧ (f a k).2.n = (f a k).1.getLsbD 15

/-- The flags of a left shift or rotate by `k` (R332, R334): C is the bit shifted out last, V is 0. -/
def LeftMeans (f : Shift) : Prop :=
  ∀ a : Word, ∀ k : Nat, k < 16 →
    ((f a k).2.c = true ↔ 0 < k ∧ a.getLsbD (16 - k) = true) ∧ (f a k).2.v = false ∧
    (f a k).2.e = false ∧ ((f a k).2.z = true ↔ (f a k).1 = 0) ∧ (f a k).2.n = (f a k).1.getLsbD 15

/-- A quotient and remainder of `n` by `d`, truncated toward zero, the remainder with the sign of `n`; none exactly where
`d` is 0 or the quotient lies outside `lo` to `hi` (40_arithmetic.md R231 to R234). -/
def DivMeans (n d lo hi : Int) (value : Word → Int) (r : Option (Word × Word)) : Prop :=
  (∀ q m, r = some (q, m) → n = value q * d + value m ∧ (value m).natAbs < d.natAbs ∧
    (value m ≠ 0 → ((0 < value m) ↔ 0 < n))) ∧
  (r = none ↔ d = 0 ∨ n.tdiv d < lo ∨ hi < n.tdiv d)

/-! ## Registers of the special function space -/

/-- A peripheral register whose write has no effect beyond its own bits. -/
def plainSfr (r : Sfr) : Bool :=
  !r.isDirection && !([Sfr.ssccon, Sfr.s0tbuf, Sfr.s0bg, Sfr.ssctb, Sfr.adcon, Sfr.t0, Sfr.t1, Sfr.t7, Sfr.t8].contains r)
    && !(decide (28 ≤ r.val ∧ r.val < 32)) && !(decide (280 ≤ r.val ∧ r.val < 284))
    && !(decide (352 ≤ r.val ∧ r.val < 360))

/-! ## Interrupts and the PEC -/

/-- At this boundary no reset, no stopped state, no waiting cycle and no trap is due, and a round is made (60_exceptions.md
R501). -/
def State.atRound (s : State) : Prop :=
  s.sys.resetReq = none ∧ s.sys.cpu = .running ∧ s.unitStop = none ∧ s.sys.waiting = false ∧ s.sys.pecWait = none ∧
    s.trapDue = none ∧ s.roundOpen = true

/-- A request of a level is accepted (60_exceptions.md R520, 70_reset_and_hazards.md R924): IEN is set and ILVL lower.
Right after an instruction that wrote PSW the values that it replaced decide; one instruction later the new ones, or by a
free choice still the old. -/
def State.Accepts (s : State) (level : Nat) : Prop :=
  let now := wbit s.core.psw 11 = true ∧ (pswLevel s.core.psw).toNat < level
  match s.sys.pswHist with
  | none => now
  | some h =>
    let old := h.ien = true ∧ h.ilvl.toNat < level
    if h.age ≤ 1 then old else now ∨ (old ∧ Config.freeBool .lateRequest s.free 0 = true)

/-- Node `ic` with vector `vec` wins the round on `level`: the level is accepted, the node is enabled
and requests, and every other enabled request has a lower level or group (R511, R520). -/
def Wins (s : State) (ic : Sfr) (vec level : Nat) : Prop :=
  s.Accepts level ∧ (ic, vec) ∈ nodes ∧
    s.regBit ic 7 = true ∧ s.regBit ic 6 = true ∧ level = fieldNat (s.reg ic) 2 4 ∧
    ∀ n ∈ nodes, n.1 ≠ ic → s.regBit n.1 7 = true → s.regBit n.1 6 = true →
      fieldNat (s.reg n.1) 0 6 < fieldNat (s.reg ic) 0 6

/-- The PEC channel of a node on level 14 or 15: the lowest bit of its level and its group (R530). -/
def State.pecChannel (s : State) (ic : Sfr) : Fin 8 := ⟨fieldNat (s.reg ic) 0 3 % 8, Nat.mod_lt _ (by omega)⟩

/-- COUNT of a PEC channel. -/
def State.pecLeft (s : State) (ch : Fin 8) : Nat := fieldNat (s.reg (Sfr.pecc ch)) 0 8

/-- SRCPx. -/
def State.srcp (s : State) (ch : Fin 8) : Word := s.mem.getWord (pecPointer ch)

/-- DSTPx. -/
def State.dstp (s : State) (ch : Fin 8) : Word := s.mem.getWord (pecPointer ch + 2)

/-- The cells of both pointers of a channel. -/
def pecCells (ch : Fin 8) : List Nat := wordCells (pecPointer ch) ++ wordCells (pecPointer ch + 2)

/-- The pointer that INC names, moved by `d` (R530). -/
def State.pecStepped (s : State) (ch : Fin 8) (inc : Nat) (src dst d : Word) : State :=
  if inc = 0 then s
  else if inc = 1 then s.storeWord (pecPointer ch + 2) (dst + d)
  else s.storeWord (pecPointer ch) (src + d)

/-- A transfer on channel `ch` for the request `ic` that wrote the bytes in `cells` left `t`: the pointer that INC names has
moved by `d`, COUNT has gone down unless it is FFh, the request flag is cleared unless COUNT was 1, and no other byte of
memory, no other register and nothing of the core has changed (R530 to R532). -/
def PecDone (s t : State) (ic : Sfr) (ch : Fin 8) (d : Word) (cells : List Nat) : Prop :=
  let con := s.reg (Sfr.pecc ch)
  let inc := fieldNat con 9 2
  t.srcp ch = (if 2 ≤ inc then s.srcp ch + d else s.srcp ch) ∧
    t.dstp ch = (if inc = 1 then s.dstp ch + d else s.dstp ch) ∧
    (∀ c, c ∉ cells ++ pecCells ch → t.mem.get c = s.mem.get c) ∧
    t.pecLeft ch = (if s.pecLeft ch = 0xFF then 0xFF else s.pecLeft ch - 1) ∧
    t.reg (Sfr.pecc ch) &&& 0xFF00 = con &&& 0xFF00 ∧
    t.regBit ic 7 = (if s.pecLeft ch = 1 then s.regBit ic 7 else false) ∧ t.core = s.core ∧
    ∀ r, r ≠ ic → r ≠ Sfr.pecc ch → t.reg r = s.reg r

/-! ## The invariant -/

/-- The bits of the core registers that the spec hard-wires: SP, STKOV, STKUN and CP have bits 15-12 at 1 and bit 0 at
0 (10_state.md R24, R51 to R53), PSW bits 9-7 are 0 (R33), DPPn have ten bits (R49), MDC eight (R58), TFR only its flags
(60_exceptions.md R550). -/
def Core.hardwired (c : Core) : Prop :=
  stackNorm c.sp = c.sp ∧ stackNorm c.stkov = c.stkov ∧ stackNorm c.stkun = c.stkun ∧ stackNorm c.cp = c.cp ∧
    c.psw &&& 0x0380 = 0 ∧ (∀ n : Fin 4, c.dpp[n.val] &&& 0xFC00 = 0) ∧ c.mdc &&& 0xFF00 = 0 ∧ c.tfr &&& 0x1F70 = 0

/-- What every step keeps: memory in its canonical form, the hard-wired bits of the core registers. -/
def State.Inv (s : State) : Prop := s.mem.wf = true ∧ s.core.hardwired

end Sys2Proof.Machine
end

