-- ==== Sys2Proof/Certificates/Slice0/Obligations.lean ====
section
/-! DEFINITION. The statements about the machine, from the numbered rules of the spec. The forms in which they speak of
operands and results stand in Safety.lean. -/

open Sys2Proof Sys2Proof.Machine

/-- Addition and subtraction compute the wrapped result and exact flags (R221, R222, R223, R224, R225, R226, R227, R228,
R240, R36, R38). -/
def Obligations.AdditionFlags : Prop :=
  AddMeans (w := 16) aluAdd false ∧ AddMeans (w := 8) aluAdd false ∧
  AddMeans (w := 16) aluAddc true ∧ AddMeans (w := 8) aluAddc true ∧
  SubMeans (w := 16) aluSub false ∧ SubMeans (w := 8) aluSub false ∧
  SubMeans (w := 16) aluSubc true ∧ SubMeans (w := 8) aluSubc true

/-- AND, OR, XOR act on each bit; CPL and NEG complement and negate (R235, R236, R237, R238, R240, R260, R261, R262,
R263, R264, R265, R266). -/
def Obligations.LogicAndUnaryFlags : Prop :=
  LogicMeans (w := 16) aluAnd and ∧ LogicMeans (w := 8) aluAnd and ∧
  LogicMeans (w := 16) aluOr or ∧ LogicMeans (w := 8) aluOr or ∧
  LogicMeans (w := 16) aluXor xor ∧ LogicMeans (w := 8) aluXor xor ∧
  (∀ a : Word, (∀ i : Nat, i < 16 → (cplOf a).1.getLsbD i = !a.getLsbD i) ∧ (cplOf a).2.v = false ∧ (cplOf a).2.c = false ∧
    ((cplOf a).2.e = true ↔ a = 0x8000) ∧ ((cplOf a).2.z = true ↔ a = 0xFFFF) ∧ (cplOf a).2.n = !a.msb) ∧
  (∀ a : Byte, (∀ i : Nat, i < 8 → (cplOf a).1.getLsbD i = !a.getLsbD i) ∧ (cplOf a).2.v = false ∧ (cplOf a).2.c = false ∧
    ((cplOf a).2.e = true ↔ a = 0x80) ∧ ((cplOf a).2.z = true ↔ a = 0xFF) ∧ (cplOf a).2.n = !a.msb) ∧
  (∀ a : Word, (negOf a).1 = -a ∧ ((negOf a).2.c = true ↔ a ≠ 0) ∧ ((negOf a).2.v = true ↔ a = 0x8000) ∧
    ((negOf a).2.e = true ↔ a = 0x8000) ∧ ((negOf a).2.z = true ↔ a = 0) ∧ (negOf a).2.n = (-a).msb) ∧
  (∀ a : Byte, (negOf a).1 = -a ∧ ((negOf a).2.c = true ↔ a ≠ 0) ∧ ((negOf a).2.v = true ↔ a = 0x80) ∧
    ((negOf a).2.e = true ↔ a = 0x80) ∧ ((negOf a).2.z = true ↔ a = 0) ∧ (negOf a).2.n = (-a).msb)

/-- The divisions give the truncated quotient and its remainder, or overflow (R231, R232, R233, R234). -/
def Obligations.QuotientsExact : Prop :=
  (∀ h l d : Word, DivMeans l.toInt d.toInt (-0x8000) 0x7FFF BitVec.toInt (divDiv h l d)) ∧
  (∀ h l d : Word, DivMeans l.toNat d.toNat 0 0xFFFF (fun v => v.toNat) (divDivu h l d)) ∧
  (∀ h l d : Word, DivMeans (h ++ l).toInt d.toInt (-0x8000) 0x7FFF BitVec.toInt (divDivl h l d)) ∧
  (∀ h l d : Word, DivMeans (h ++ l).toNat d.toNat 0 0xFFFF (fun v => v.toNat) (divDivlu h l d))

/-- Shifts and rotates move each bit, and C and V tell what was shifted out (R330, R331, R332, R333, R334, R335). -/
def Obligations.ShiftResults : Prop :=
  RightMeans shiftShr ∧ RightMeans shiftRor ∧ RightMeans shiftAshr ∧ LeftMeans shiftShl ∧ LeftMeans shiftRol ∧
  ∀ a : Word, ∀ k i : Nat, k < 16 → i < 16 →
    (shiftShr a k).1.getLsbD i = a.getLsbD (i + k) ∧
    (shiftShl a k).1.getLsbD i = (decide (k ≤ i) && a.getLsbD (i - k)) ∧
    (shiftRor a k).1.getLsbD i = a.getLsbD ((i + k) % 16) ∧
    (shiftRol a k).1.getLsbD i = a.getLsbD ((i + 16 - k) % 16) ∧
    (shiftAshr a k).1.getLsbD i = a.getLsbD (min (i + k) 15)

/-- The condition codes, by number, and what they tell after a comparison (R175, R280). -/
def Obligations.BranchConditions : Prop :=
  (∀ f : Flags, (List.range 16).map (fun n => condition (ccOf (BitVec.ofNat 4 n)) f) =
    [true, !f.z && !f.e, f.z, !f.z, f.v, !f.v, f.n, !f.n, f.c, !f.c, !f.z && f.n == f.v, f.z || f.n != f.v,
      f.n != f.v, f.n == f.v, !f.z && !f.c, f.z || f.c]) ∧
  (∀ a b : Word,
    (condition .z (cmpFlags a b) = true ↔ a = b) ∧ (condition .c (cmpFlags a b) = true ↔ a.toNat < b.toNat) ∧
    (condition .ule (cmpFlags a b) = true ↔ a.toNat ≤ b.toNat) ∧
    (condition .ugt (cmpFlags a b) = true ↔ b.toNat < a.toNat) ∧
    (condition .nc (cmpFlags a b) = true ↔ b.toNat ≤ a.toNat) ∧
    (condition .slt (cmpFlags a b) = true ↔ a.toInt < b.toInt) ∧
    (condition .sle (cmpFlags a b) = true ↔ a.toInt ≤ b.toInt) ∧
    (condition .sgt (cmpFlags a b) = true ↔ b.toInt < a.toInt) ∧
    (condition .sge (cmpFlags a b) = true ↔ b.toInt ≤ a.toInt))

/-- ALU instructions on two GPRs or a GPR and data3: completion, result, frame (R220, R221, R223, R225, R227, R261,
R263, R265). -/
def Obligations.AluRegister : Prop :=
  AluRR wordView aluAdd .addRR ∧ AluRR byteView aluAdd .addbRR ∧
  AluRR wordView aluAddc .addcRR ∧ AluRR byteView aluAddc .addcbRR ∧
  AluRR wordView aluSub .subRR ∧ AluRR byteView aluSub .subbRR ∧
  AluRR wordView aluSubc .subcRR ∧ AluRR byteView aluSubc .subcbRR ∧
  AluRR wordView aluAnd .andRR ∧ AluRR byteView aluAnd .andbRR ∧
  AluRR wordView aluOr .orRR ∧ AluRR byteView aluOr .orbRR ∧
  AluRR wordView aluXor .xorRR ∧ AluRR byteView aluXor .xorbRR ∧
  AluR3 wordView aluAdd .addR3 ∧ AluR3 byteView aluAdd .addbR3 ∧
  AluR3 wordView aluAddc .addcR3 ∧ AluR3 byteView aluAddc .addcbR3 ∧
  AluR3 wordView aluSub .subR3 ∧ AluR3 byteView aluSub .subbR3 ∧
  AluR3 wordView aluSubc .subcR3 ∧ AluR3 byteView aluSubc .subcbR3 ∧
  AluR3 wordView aluAnd .andR3 ∧ AluR3 byteView aluAnd .andbR3 ∧
  AluR3 wordView aluOr .orR3 ∧ AluR3 byteView aluOr .orbR3 ∧
  AluR3 wordView aluXor .xorR3 ∧ AluR3 byteView aluXor .xorbR3

/-- ALU instructions Rwn,[Rwi]: completion, result, frame (R168, R220, R221, R223, R225, R227, R261, R263, R265). -/
def Obligations.AluIndirect : Prop :=
  AluRI wordView aluAdd .addRI ∧ AluRI byteView aluAdd .addbRI ∧
  AluRI wordView aluAddc .addcRI ∧ AluRI byteView aluAddc .addcbRI ∧
  AluRI wordView aluSub .subRI ∧ AluRI byteView aluSub .subbRI ∧
  AluRI wordView aluSubc .subcRI ∧ AluRI byteView aluSubc .subcbRI ∧
  AluRI wordView aluAnd .andRI ∧ AluRI byteView aluAnd .andbRI ∧
  AluRI wordView aluOr .orRI ∧ AluRI byteView aluOr .orbRI ∧
  AluRI wordView aluXor .xorRI ∧ AluRI byteView aluXor .xorbRI

/-- ALU instructions Rwn,[Rwi+]: the pointer is incremented after the read (its aliasing with Rwn is the model's choice,
log 6) (R168, R220). -/
def Obligations.AluPostIncrement : Prop :=
  AluRIP wordView aluAdd .addRIP ∧ AluRIP byteView aluAdd .addbRIP ∧
  AluRIP wordView aluAddc .addcRIP ∧ AluRIP byteView aluAddc .addcbRIP ∧
  AluRIP wordView aluSub .subRIP ∧ AluRIP byteView aluSub .subbRIP ∧
  AluRIP wordView aluSubc .subcRIP ∧ AluRIP byteView aluSubc .subcbRIP ∧
  AluRIP wordView aluAnd .andRIP ∧ AluRIP byteView aluAnd .andbRIP ∧
  AluRIP wordView aluOr .orRIP ∧ AluRIP byteView aluOr .orbRIP ∧
  AluRIP wordView aluXor .xorRIP ∧ AluRIP byteView aluXor .xorbRIP

/-- ALU instructions reg,#data: completion, result, frame, the limit check of SP (what the deferred trap holds back is
log 38) (R220, R166, R241, R555, R556). That a deferred stack trap holds every class A trap for one instruction is
log 38 (DEDUCED). -/
def Obligations.AluRegisterImmediate : Prop :=
  AluRegImm wordView aluAdd .underflow .addRegImm ∧ AluRegImm byteView aluAdd .underflow .addbRegImm ∧
  AluRegImm wordView aluAddc .underflow .addcRegImm ∧ AluRegImm byteView aluAddc .underflow .addcbRegImm ∧
  AluRegImm wordView aluSub .overflow .subRegImm ∧ AluRegImm byteView aluSub .overflow .subbRegImm ∧
  AluRegImm wordView aluSubc .overflow .subcRegImm ∧ AluRegImm byteView aluSubc .overflow .subcbRegImm ∧
  AluRegImm wordView aluAnd .none .andRegImm ∧ AluRegImm byteView aluAnd .none .andbRegImm ∧
  AluRegImm wordView aluOr .none .orRegImm ∧ AluRegImm byteView aluOr .none .orbRegImm ∧
  AluRegImm wordView aluXor .none .xorRegImm ∧ AluRegImm byteView aluXor .none .xorbRegImm ∧
  SpLimited aluAdd .addRegImm 0x2000 (fun s sp => s.core.stkun < sp) ∧
  SpLimited aluAddc .addcRegImm 0x2000 (fun s sp => s.core.stkun < sp) ∧
  SpLimited aluSub .subRegImm 0x4000 (fun s sp => sp < s.core.stkov) ∧
  SpLimited aluSubc .subcRegImm 0x4000 (fun s sp => sp < s.core.stkov)

/-- ALU instructions reg,mem: completion, result, frame (R220, R166, R241). -/
def Obligations.AluRegisterMemory : Prop :=
  AluRegMem wordView aluAdd .underflow .addRegMem ∧ AluRegMem byteView aluAdd .underflow .addbRegMem ∧
  AluRegMem wordView aluAddc .underflow .addcRegMem ∧ AluRegMem byteView aluAddc .underflow .addcbRegMem ∧
  AluRegMem wordView aluSub .overflow .subRegMem ∧ AluRegMem byteView aluSub .overflow .subbRegMem ∧
  AluRegMem wordView aluSubc .overflow .subcRegMem ∧ AluRegMem byteView aluSubc .overflow .subcbRegMem ∧
  AluRegMem wordView aluAnd .none .andRegMem ∧ AluRegMem byteView aluAnd .none .andbRegMem ∧
  AluRegMem wordView aluOr .none .orRegMem ∧ AluRegMem byteView aluOr .none .orbRegMem ∧
  AluRegMem wordView aluXor .none .xorRegMem ∧ AluRegMem byteView aluXor .none .xorbRegMem

/-- ALU instructions mem,reg: completion, the stored bytes, frame (R220, R166, R241, R104). -/
def Obligations.AluMemoryRegister : Prop :=
  AluMemReg wordView aluAdd .underflow .addMemReg ∧ AluMemReg byteView aluAdd .underflow .addbMemReg ∧
  AluMemReg wordView aluAddc .underflow .addcMemReg ∧ AluMemReg byteView aluAddc .underflow .addcbMemReg ∧
  AluMemReg wordView aluSub .overflow .subMemReg ∧ AluMemReg byteView aluSub .overflow .subbMemReg ∧
  AluMemReg wordView aluSubc .overflow .subcMemReg ∧ AluMemReg byteView aluSubc .overflow .subcbMemReg ∧
  AluMemReg wordView aluAnd .none .andMemReg ∧ AluMemReg byteView aluAnd .none .andbMemReg ∧
  AluMemReg wordView aluOr .none .orMemReg ∧ AluMemReg byteView aluOr .none .orbMemReg ∧
  AluMemReg wordView aluXor .none .xorMemReg ∧ AluMemReg byteView aluXor .none .xorbMemReg

/-- CMP and CMPB: flags of the difference, no result written (its aliasing of pointer and op1 is the model's choice, log
6) (R220, R280, R281, R282). -/
def Obligations.Compare : Prop :=
  CmpRR wordView .cmpRR ∧ CmpRR byteView .cmpbRR ∧
  CmpR3 wordView .cmpR3 ∧ CmpR3 byteView .cmpbR3 ∧
  CmpRI wordView .cmpRI ∧ CmpRI byteView .cmpbRI ∧
  CmpRIP wordView .cmpRIP ∧ CmpRIP byteView .cmpbRIP ∧
  CmpRegImm wordView .cmpRegImm ∧ CmpRegImm byteView .cmpbRegImm ∧
  CmpRegMem wordView .cmpRegMem ∧ CmpRegMem byteView .cmpbRegMem

/-- CMPI1, CMPI2, CMPD1, CMPD2: compare, then step Rwn (R283, R284, R285, R286, R280). -/
def Obligations.CompareLoop : Prop :=
  CmpLoop 1 .cmpi1R4 .cmpi1R16 .cmpi1RMem ∧
  CmpLoop 2 .cmpi2R4 .cmpi2R16 .cmpi2RMem ∧
  CmpLoop (-1) .cmpd1R4 .cmpd1R16 .cmpd1RMem ∧
  CmpLoop (-2) .cmpd2R4 .cmpd2R16 .cmpd2RMem

/-- CPL, CPLB, NEG, NEGB: completion, result, frame (R235, R236, R237, R238). -/
def Obligations.ComplementNegate : Prop :=
  Unary wordView cplOf .cpl ∧ Unary byteView cplOf .cplb ∧
  Unary wordView negOf .neg ∧ Unary byteView negOf .negb

/-- MUL and MULU: the exact product, its flags, frame (R229, R230, R58, R59). -/
def Obligations.Multiply : Prop :=
  (∀ s rn rm, s.bank = true → s.sys.resume = false →
    s.suspendedFrame { op := .mul, rn := rn, rm := rm } (s.gpr rn) (s.gpr rm) = none → ∃ t p, exec (.mul rn rm) s = .next t ∧
    BitVec.toInt (p : BitVec 32) = (s.gpr rn).toInt * (s.gpr rm).toInt ∧
    MdWritten s t (p.extractLsb' 16 16) (p.extractLsb' 0 16)
      { e := false, z := p == 0, v := decide (p.toInt < -0x8000 ∨ 0x7FFF < p.toInt), c := false, n := p.msb }) ∧
  (∀ s rn rm, s.bank = true → s.sys.resume = false →
    s.suspendedFrame { op := .mulu, rn := rn, rm := rm } (s.gpr rn) (s.gpr rm) = none → ∃ t p, exec (.mulu rn rm) s = .next t ∧
    BitVec.toNat (p : BitVec 32) = (s.gpr rn).toNat * (s.gpr rm).toNat ∧
    MdWritten s t (p.extractLsb' 16 16) (p.extractLsb' 0 16)
      { e := false, z := p == 0, v := decide (0xFFFF < p.toNat), c := false, n := p.msb })

/-- DIV, DIVU, DIVL, DIVLU: quotient in MDL, remainder in MDH, frame (R231, R232, R233, R234, R58, R59). -/
def Obligations.Divide : Prop :=
  (∀ s rn, s.bank = true → s.sys.resume = false →
    s.suspendedFrame { op := .div, rn := rn, rm := rn } (s.gpr rn) (s.gpr rn) = none → ∃ t, exec (.div rn) s = .next t ∧
    match divDiv s.core.mdh s.core.mdl (s.gpr rn) with
    | some (q, r) => MdWritten s t r q { e := false, z := q == 0, v := false, c := false, n := q.msb }
    | none =>
      MdWritten s t (Config.freeWord .divRemainder s.free 0) (Config.freeWord .divQuotient s.free 0)
        { e := false, z := Config.freeBool .divFlags s.free 0, v := true, c := false,
          n := Config.freeBool .divFlags s.free 1 }) ∧
  (∀ s rn, s.bank = true → s.sys.resume = false →
    s.suspendedFrame { op := .divu, rn := rn, rm := rn } (s.gpr rn) (s.gpr rn) = none → ∃ t, exec (.divu rn) s = .next t ∧
    match divDivu s.core.mdh s.core.mdl (s.gpr rn) with
    | some (q, r) => MdWritten s t r q { e := false, z := q == 0, v := false, c := false, n := q.msb }
    | none =>
      MdWritten s t (Config.freeWord .divRemainder s.free 0) (Config.freeWord .divQuotient s.free 0)
        { e := false, z := Config.freeBool .divFlags s.free 0, v := true, c := false,
          n := Config.freeBool .divFlags s.free 1 }) ∧
  (∀ s rn, s.bank = true → s.sys.resume = false →
    s.suspendedFrame { op := .divl, rn := rn, rm := rn } (s.gpr rn) (s.gpr rn) = none → ∃ t, exec (.divl rn) s = .next t ∧
    match divDivl s.core.mdh s.core.mdl (s.gpr rn) with
    | some (q, r) => MdWritten s t r q { e := false, z := q == 0, v := false, c := false, n := q.msb }
    | none =>
      MdWritten s t (Config.freeWord .divRemainder s.free 0) (Config.freeWord .divQuotient s.free 0)
        { e := false, z := Config.freeBool .divFlags s.free 0, v := true, c := false,
          n := Config.freeBool .divFlags s.free 1 }) ∧
  (∀ s rn, s.bank = true → s.sys.resume = false →
    s.suspendedFrame { op := .divlu, rn := rn, rm := rn } (s.gpr rn) (s.gpr rn) = none → ∃ t, exec (.divlu rn) s = .next t ∧
    match divDivlu s.core.mdh s.core.mdl (s.gpr rn) with
    | some (q, r) => MdWritten s t r q { e := false, z := q == 0, v := false, c := false, n := q.msb }
    | none =>
      MdWritten s t (Config.freeWord .divRemainder s.free 0) (Config.freeWord .divQuotient s.free 0)
        { e := false, z := Config.freeBool .divFlags s.free 0, v := true, c := false,
          n := Config.freeBool .divFlags s.free 1 })

/-- A resumed multiply or divide completes as if it had not been interrupted, also one that a hardware trap held up behind
its RETI (log 11) (R245, R436, R229, R230, R231, R232, R233, R234). `suspendedFrame` answers the frame where RETI found MULIP
set, or where a hardware trap was entered between that RETI and the instruction: that the frame is then kept is log 11
(DEDUCED). -/
def Obligations.ResumedMultiplyDivide : Prop :=
  (∀ s rn rm f, s.bank = true →
    s.suspendedFrame { op := .mul, rn := rn, rm := rm } (s.gpr rn) (s.gpr rm) = some f →
    let u : State := { s with
      core := { s.core with mdh := f.mdh, mdl := f.mdl }
      sys := { s.sys with resume := false, suspended := s.sys.suspended.erase f } }
    ∃ t p, exec (.mul rn rm) s = .next t ∧ BitVec.toInt (p : BitVec 32) = (s.gpr rn).toInt * (s.gpr rm).toInt ∧
      MdWritten u t (p.extractLsb' 16 16) (p.extractLsb' 0 16)
        { e := false, z := p == 0, v := decide (p.toInt < -0x8000 ∨ 0x7FFF < p.toInt), c := false, n := p.msb }) ∧
  (∀ s rn rm f, s.bank = true →
    s.suspendedFrame { op := .mulu, rn := rn, rm := rm } (s.gpr rn) (s.gpr rm) = some f →
    let u : State := { s with
      core := { s.core with mdh := f.mdh, mdl := f.mdl }
      sys := { s.sys with resume := false, suspended := s.sys.suspended.erase f } }
    ∃ t p, exec (.mulu rn rm) s = .next t ∧ BitVec.toNat (p : BitVec 32) = (s.gpr rn).toNat * (s.gpr rm).toNat ∧
      MdWritten u t (p.extractLsb' 16 16) (p.extractLsb' 0 16)
        { e := false, z := p == 0, v := decide (0xFFFF < p.toNat), c := false, n := p.msb }) ∧
  (∀ s rn f, s.bank = true →
    s.suspendedFrame { op := .div, rn := rn, rm := rn } (s.gpr rn) (s.gpr rn) = some f →
    let u : State := { s with
      core := { s.core with mdh := f.mdh, mdl := f.mdl }
      sys := { s.sys with resume := false, suspended := s.sys.suspended.erase f } }
    ∃ t, exec (.div rn) s = .next t ∧
      match divDiv f.mdh f.mdl (s.gpr rn) with
      | some (q, r) => MdWritten u t r q { e := false, z := q == 0, v := false, c := false, n := q.msb }
      | none =>
        MdWritten u t (Config.freeWord .divRemainder s.free 0) (Config.freeWord .divQuotient s.free 0)
          { e := false, z := Config.freeBool .divFlags s.free 0, v := true, c := false,
            n := Config.freeBool .divFlags s.free 1 }) ∧
  (∀ s rn f, s.bank = true →
    s.suspendedFrame { op := .divu, rn := rn, rm := rn } (s.gpr rn) (s.gpr rn) = some f →
    let u : State := { s with
      core := { s.core with mdh := f.mdh, mdl := f.mdl }
      sys := { s.sys with resume := false, suspended := s.sys.suspended.erase f } }
    ∃ t, exec (.divu rn) s = .next t ∧
      match divDivu f.mdh f.mdl (s.gpr rn) with
      | some (q, r) => MdWritten u t r q { e := false, z := q == 0, v := false, c := false, n := q.msb }
      | none =>
        MdWritten u t (Config.freeWord .divRemainder s.free 0) (Config.freeWord .divQuotient s.free 0)
          { e := false, z := Config.freeBool .divFlags s.free 0, v := true, c := false,
            n := Config.freeBool .divFlags s.free 1 }) ∧
  (∀ s rn f, s.bank = true →
    s.suspendedFrame { op := .divl, rn := rn, rm := rn } (s.gpr rn) (s.gpr rn) = some f →
    let u : State := { s with
      core := { s.core with mdh := f.mdh, mdl := f.mdl }
      sys := { s.sys with resume := false, suspended := s.sys.suspended.erase f } }
    ∃ t, exec (.divl rn) s = .next t ∧
      match divDivl f.mdh f.mdl (s.gpr rn) with
      | some (q, r) => MdWritten u t r q { e := false, z := q == 0, v := false, c := false, n := q.msb }
      | none =>
        MdWritten u t (Config.freeWord .divRemainder s.free 0) (Config.freeWord .divQuotient s.free 0)
          { e := false, z := Config.freeBool .divFlags s.free 0, v := true, c := false,
            n := Config.freeBool .divFlags s.free 1 }) ∧
  (∀ s rn f, s.bank = true →
    s.suspendedFrame { op := .divlu, rn := rn, rm := rn } (s.gpr rn) (s.gpr rn) = some f →
    let u : State := { s with
      core := { s.core with mdh := f.mdh, mdl := f.mdl }
      sys := { s.sys with resume := false, suspended := s.sys.suspended.erase f } }
    ∃ t, exec (.divlu rn) s = .next t ∧
      match divDivlu f.mdh f.mdl (s.gpr rn) with
      | some (q, r) => MdWritten u t r q { e := false, z := q == 0, v := false, c := false, n := q.msb }
      | none =>
        MdWritten u t (Config.freeWord .divRemainder s.free 0) (Config.freeWord .divQuotient s.free 0)
          { e := false, z := Config.freeBool .divFlags s.free 0, v := true, c := false,
            n := Config.freeBool .divFlags s.free 1 })

/-- SHR, SHL, ROR, ROL, ASHR, PRIOR: completion, result, frame (R330, R331, R332, R333, R334, R335, R336). -/
def Obligations.ShiftInstructions : Prop :=
  Shifts shiftShr .shrRR .shrR4 ∧
  Shifts shiftShl .shlRR .shlR4 ∧
  Shifts shiftRor .rorRR .rorR4 ∧
  Shifts shiftRol .rolRR .rolR4 ∧
  Shifts shiftAshr .ashrRR .ashrR4 ∧
  (∀ s rn rm, s.bank = true → ∃ t c, exec (.prior rn rm) s = .next t ∧
    WordWritten s t (s.gprAt rn) (BitVec.ofNat 16 c)
      { e := false, z := s.gpr rm == 0, v := false, c := false, n := false } 2 ∧
    (s.gpr rm = 0 → c = 0) ∧
    (s.gpr rm ≠ 0 → c < 16 ∧ (s.gpr rm).getLsbD (15 - c) = true ∧ ∀ j, 15 - c < j → (s.gpr rm).getLsbD j = false))

/-- MOV and MOVB to a register: completion, result, frame (R350, R351, R352, R166). -/
def Obligations.MoveToRegister : Prop :=
  MovRR wordView .movRR ∧ MovRR byteView .movbRR ∧
  MovR4 wordView .movR4 ∧ MovR4 byteView .movbR4 ∧
  MovRegImm wordView .movRegImm ∧ MovRegImm byteView .movbRegImm ∧
  MovRI wordView .movRI ∧ MovRI byteView .movbRI ∧
  MovRX wordView .movRX ∧ MovRX byteView .movbRX ∧
  MovRegMem wordView .movRegMem ∧ MovRegMem byteView .movbRegMem

/-- MOV and MOVB with auto-modified pointers (aliasing of pointer and data is the model's choice, log 6 and log 30)
(R168, R350, R351, R352). -/
def Obligations.MovePointers : Prop :=
  MovRIP wordView .movRIP ∧ MovRIP byteView .movbRIP ∧
  MovDR wordView .movDR ∧ MovDR byteView .movbDR ∧
  MovIIP wordView .movIIP ∧ MovIIP byteView .movbIIP ∧
  MovIPI wordView .movIPI ∧ MovIPI byteView .movbIPI

/-- MOV and MOVB to memory: the stored bytes, frame (R350, R351, R352, R104). -/
def Obligations.MoveToMemory : Prop :=
  MovIR wordView .movIR ∧ MovIR byteView .movbIR ∧
  MovII wordView .movII ∧ MovII byteView .movbII ∧
  MovXR wordView .movXR ∧ MovXR byteView .movbXR ∧
  MovIMem wordView .movIMem ∧ MovIMem byteView .movbIMem ∧
  MovMemI wordView .movMemI ∧ MovMemI byteView .movbMemI ∧
  MovMemReg wordView .movMemReg ∧ MovMemReg byteView .movbMemReg

/-- MOVBS and MOVBZ: sign and zero extension, flags, frame (R353, R354). -/
def Obligations.MoveExtended : Prop :=
  MovExtend (fun b => b.signExtend 16) (fun psw b => { flagsOf psw with e := false, z := b == 0, n := b.msb })
    .movbsRR .movbsRegMem .movbsMemReg ∧
  MovExtend (fun b => b.setWidth 16) (fun psw b => { flagsOf psw with e := false, z := b == 0, n := false })
    .movbzRR .movbzRegMem .movbzMemReg

/-- BSET and BCLR: one bit, flags from its old value, frame (R300, R303, R304, R311, R134). Which change of the hardware
the noted write may overwrite is log 42 (DEDUCED). -/
def Obligations.BitSetAndClear : Prop :=
  BitAssigned true .bset ∧ BitAssigned false .bclr

/-- BMOV, BMOVN, BAND, BOR, BXOR, BCMP: the new bit, flags, frame (R300, R305, R306, R307, R308, R309, R310, R311).
Which change of the hardware the noted write may overwrite is log 42 (DEDUCED). -/
def Obligations.BitToBit : Prop :=
  BitPaired (fun _ s => { e := false, z := !s, v := false, c := false, n := s }) (fun _ s => s) .bmov ∧
  BitPaired (fun _ s => { e := false, z := !s, v := false, c := false, n := s }) (fun _ s => !s) .bmovn ∧
  BitPaired (fun d s => { e := false, z := !(d || s), v := d || s, c := d && s, n := xor d s }) and .band ∧
  BitPaired (fun d s => { e := false, z := !(d || s), v := d || s, c := d && s, n := xor d s }) or .bor ∧
  BitPaired (fun d s => { e := false, z := !(d || s), v := d || s, c := d && s, n := xor d s }) xor .bxor ∧
  (∀ s bz z bq q ws r wd u, s.bitWord bq = some (ws, r) →
    (if bz = bq then some (ws, r) else r.bitWord bz) = some (wd, u) →
    ∃ t, exec (.bcmp bz z bq q) s = .next t ∧
      FlagsWritten u t
        { e := false, z := !(wbit wd z.toNat || wbit ws q.toNat), v := wbit wd z.toNat || wbit ws q.toNat,
          c := wbit wd z.toNat && wbit ws q.toNat, n := xor (wbit wd z.toNat) (wbit ws q.toNat) } 4)

/-- BFLDH and BFLDL: the masked byte, flags of the new word, frame (R301, R302, R311). Which change of the hardware the
noted write may overwrite is log 42 (DEDUCED). -/
def Obligations.BitFields : Prop :=
  BitField (fun b => mkWord 0 b) .bfldh ∧ BitField (fun b => mkWord b 0) .bfldl

/-- JMPA, JMPI, JMPR, JMPS: taken and not taken, frame (R400, R401, R402, R403, R404, R175). -/
def Obligations.Jumps : Prop :=
  (∀ s cc a, (s.holds cc = true → ∃ t, exec (.jmpa cc a) s = .next t ∧ Branched s t s.core.csp a) ∧
    (s.holds cc = false → ∃ t, exec (.jmpa cc a) s = .next t ∧ Passed s t 4)) ∧
  (∀ s cc rn, (s.holds cc = true → s.bank = true →
      ∃ t, exec (.jmpi cc rn) s = .next t ∧ Branched s t s.core.csp (s.gpr rn)) ∧
    (s.holds cc = false → ∃ t, exec (.jmpi cc rn) s = .next t ∧ Passed s t 2)) ∧
  (∀ s cc rel, (s.holds cc = true →
      ∃ t, exec (.jmpr cc rel) s = .next t ∧
        Branched s t s.core.csp (s.core.ip + 2 + BitVec.ofInt 16 (2 * rel.toInt))) ∧
    (s.holds cc = false → ∃ t, exec (.jmpr cc rel) s = .next t ∧ Passed s t 2)) ∧
  (∀ s seg a, ∃ t, exec (.jmps seg a) s = .next t ∧ Branched s t seg a)

/-- JB and JNB: the bit decides, no flag changes (R405, R406, R407). -/
def Obligations.JumpOnBit : Prop :=
  (∀ s b q rel w u, s.bitWord b = some (w, u) →
    (wbit w q.toNat = true → ∃ t, exec (.jb b q rel) s = .next t ∧
      Branched u t s.core.csp (s.core.ip + 4 + BitVec.ofInt 16 (2 * rel.toInt))) ∧
    (wbit w q.toNat = false → ∃ t, exec (.jb b q rel) s = .next t ∧ Passed u t 4)) ∧
  (∀ s b q rel w u, s.bitWord b = some (w, u) →
    (wbit w q.toNat = false → ∃ t, exec (.jnb b q rel) s = .next t ∧
      Branched u t s.core.csp (s.core.ip + 4 + BitVec.ofInt 16 (2 * rel.toInt))) ∧
    (wbit w q.toNat = true → ∃ t, exec (.jnb b q rel) s = .next t ∧ Passed u t 4))

/-- JBC and JNBS: jump and invert the bit, flags from it (that R408, R409 prevail over R300 is log 47) (R408, R409,
R400). That R408 and R409 prevail over R300 for E, V and C is log 47 (DEDUCED). -/
def Obligations.JumpAndChangeBit : Prop :=
  (∀ s b q rel w u, s.bitWord b = some (w, u) →
    let f : Flags := { flagsOf u.core.psw with z := !wbit w q.toNat, n := wbit w q.toNat }
    let target := s.core.ip + 4 + BitVec.ofInt 16 (2 * rel.toInt)
    (wbit w q.toNat = false → ∃ t, exec (.jbc b q rel) s = .next t ∧ FlagsWritten u t f 4) ∧
    (wbit w q.toNat = true →
      (∀ k, u.bitCell b = some k → ∃ t, exec (.jbc b q rel) s = .next t ∧
        t.mem.getWord k = wset w q.toNat false ∧ (∀ c, c ∉ wordCells k → t.mem.get c = u.mem.get c) ∧
        t.core.ip = target ∧ t.core.csp = u.core.csp ∧ t.core.sp = u.core.sp ∧
        t.core.psw = withFlags u.core.psw f ∧ t.core.tfr = u.core.tfr ||| branchFlags target ∧ t.steady = u.steady) ∧
      (∀ x, (u.withFlags f).bitStored b (wset w q.toNat false) (bitMask q.toNat) = some x →
        ∃ t, exec (.jbc b q rel) s = .next t ∧ Branched x t x.core.csp (x.core.ip + 4 + BitVec.ofInt 16 (2 * rel.toInt))))) ∧
  (∀ s b q rel w u, s.bitWord b = some (w, u) →
    let f : Flags := { flagsOf u.core.psw with z := !wbit w q.toNat, n := wbit w q.toNat }
    let target := s.core.ip + 4 + BitVec.ofInt 16 (2 * rel.toInt)
    (wbit w q.toNat = true → ∃ t, exec (.jnbs b q rel) s = .next t ∧ FlagsWritten u t f 4) ∧
    (wbit w q.toNat = false →
      (∀ k, u.bitCell b = some k → ∃ t, exec (.jnbs b q rel) s = .next t ∧
        t.mem.getWord k = wset w q.toNat true ∧ (∀ c, c ∉ wordCells k → t.mem.get c = u.mem.get c) ∧
        t.core.ip = target ∧ t.core.csp = u.core.csp ∧ t.core.sp = u.core.sp ∧
        t.core.psw = withFlags u.core.psw f ∧ t.core.tfr = u.core.tfr ||| branchFlags target ∧ t.steady = u.steady) ∧
      (∀ x, (u.withFlags f).bitStored b (wset w q.toNat true) (bitMask q.toNat) = some x →
        ∃ t, exec (.jnbs b q rel) s = .next t ∧ Branched x t x.core.csp (x.core.ip + 4 + BitVec.ofInt 16 (2 * rel.toInt)))))

/-- CALLA, CALLI, CALLR: the return address on the stack, frame (R420, R421, R422, R423, R390). -/
def Obligations.Calls : Prop :=
  (∀ s cc a k, (s.holds cc = true → s.stackAt s.spDown = some k →
      ∃ t, exec (.calla cc a) s = .next t ∧ Called s t k (s.core.ip + 4) s.core.csp a) ∧
    (s.holds cc = false → ∃ t, exec (.calla cc a) s = .next t ∧ Passed s t 4)) ∧
  (∀ s cc rn k, (s.holds cc = true → s.bank = true → s.stackAt s.spDown = some k →
      ∃ t, exec (.calli cc rn) s = .next t ∧ Called s t k (s.core.ip + 2) s.core.csp (s.gpr rn)) ∧
    (s.holds cc = false → ∃ t, exec (.calli cc rn) s = .next t ∧ Passed s t 2)) ∧
  (∀ s rel k, s.stackAt s.spDown = some k → ∃ t, exec (.callr rel) s = .next t ∧
    Called s t k (s.core.ip + 2) s.core.csp (s.core.ip + 2 + BitVec.ofInt 16 (2 * rel.toInt)))

/-- CALLS and PCALL: two words on the stack, frame (R424, R425, R390, R350). -/
def Obligations.FarCalls : Prop :=
  (∀ s seg a k1 k2, s.stackAt s.spDown = some k1 → s.stackAt s.spDown2 = some k2 →
    ∃ t, exec (.calls seg a) s = .next t ∧
      Called2 s t k1 k2 (s.core.csp.setWidth 16) (s.core.ip + 4) seg a s.core.psw) ∧
  (∀ s reg a v u k1 k2, s.regWord reg = some (v, u) → u.stackAt u.spDown = some k1 → u.stackAt u.spDown2 = some k2 →
    ∃ t, exec (.pcall reg a) s = .next t ∧
      Called2 u t k1 k2 v (s.core.ip + 4) u.core.csp a (withFlags u.core.psw (moveFlags u.core.psw v)))

/-- TRAP: PSW, CSP and IP on the stack, the vector entered, PSW unchanged (R426, R540, R390). Where SYSCON has just cleared
SGTDIS and TRAP still saw the bit (log 8, DESIGN CHOICE), CSP is cleared though nothing of it was pushed: the vector lies in
segment 0 (R121; log 43, DEDUCED). -/
def Obligations.TrapInstruction : Prop :=
  (∀ s n k1 k2 k3, s.sgtdis = false → s.stackAt s.spDown = some k1 → s.stackAt s.spDown2 = some k2 →
    s.stackAt s.spDown3 = some k3 → ∃ t, exec (.trap n) s = .next t ∧
      Called3 (s.setPsw s.core.psw) t k1 k2 k3 s.core.psw (s.core.csp.setWidth 16) (s.core.ip + 2) 0
        (BitVec.ofNat 16 (4 * n.toNat)) s.core.psw) ∧
  (∀ s n k1 k2, s.sgtdis = true → s.stackAt s.spDown = some k1 → s.stackAt s.spDown2 = some k2 →
    ∃ t, exec (.trap n) s = .next t ∧
      Called2 (s.setPsw s.core.psw) t k1 k2 s.core.psw (s.core.ip + 2)
        (if wbit s.core.syscon 11 then s.core.csp else 0) (BitVec.ofNat 16 (4 * n.toNat)) s.core.psw)

/-- RET, RETS, RETP: popped return address, SP, frame (RETP TFR with an odd popped IP is the model's, log 83) (R431, R432,
R433, R391). The last clause covers RETP TFR with an odd popped IP: that the register is written before ILLINA is set in
it is log 83 (DESIGN CHOICE), since R433 and R563 do not order the two. -/
def Obligations.Returns : Prop :=
  (∀ s k, s.stackAt s.effSp = some k → ∃ t, exec .ret s = .next t ∧
    Returned s t s.core.csp (s.mem.getWord k) s.spUp (popFlags s s.spUp)) ∧
  (∀ s k1 k2, s.stackAt s.effSp = some k1 → s.stackAt s.spUp = some k2 → ∃ t, exec .rets s = .next t ∧
    Returned s t (loByte (s.mem.getWord k2)) (s.mem.getWord k1) s.spUp2 (popFlags s s.spUp ||| popFlags s s.spUp2)) ∧
  (∀ s reg k1 k2, s.stackAt s.effSp = some k1 → s.stackAt s.spUp = some k2 →
    let v := s.mem.getWord k2
    let u := s.popped.popped
    (isGprCode reg = true → s.bank = true → ∃ t, exec (.retp reg) s = .next t ∧
      t.mem.getWord (s.gprAt (gprOfCode reg)) = v ∧
      (∀ c, c ∉ wordCells (s.gprAt (gprOfCode reg)) → t.mem.get c = s.mem.get c) ∧
      t.core.ip = s.mem.getWord k1 ∧ t.core.csp = s.core.csp ∧ t.core.sp = s.spUp2 ∧
      t.core.psw = withFlags s.core.psw (moveFlags s.core.psw v) ∧
      t.core.tfr = s.core.tfr ||| popFlags s s.spUp ||| popFlags s s.spUp2 ||| branchFlags (s.mem.getWord k1) ∧
      t.steady = s.steady) ∧
    (∀ x, (u.withFlags (moveFlags u.core.psw v)).regWordStored reg v = some x →
      exec (.retp reg) s = .next (x.branch (s.mem.getWord k1))))

/-- RETI: IP, CSP and PSW restored, MULIP of the PSW left tested, the innermost trap class left (R436, R545, R547, R391).
The arbitration delay and the PSW history after it are those of R546 and R924. -/
def Obligations.ReturnFromInterrupt : Prop :=
  ∀ s k1 k2 k3, s.stackAt s.effSp = some k1 → s.stackAt s.spUp = some k2 →
  (s.sgtdis = false → s.stackAt s.spUp2 = some k3) →
    let psw := (if s.sgtdis then s.mem.getWord k2 else s.mem.getWord k3) &&& 0xFC7F
    ∃ t, exec .reti s = .next t ∧ t.core.ip = s.mem.getWord k1 ∧
      t.core.csp = (if s.sgtdis then s.core.csp else loByte (s.mem.getWord k2)) ∧ t.core.psw = psw ∧
      t.core.sp = (if s.sgtdis then s.spUp2 else s.spUp3) ∧ t.mem = s.mem ∧
      t.core.tfr = s.core.tfr ||| popFlags s s.spUp ||| popFlags s s.spUp2 |||
        (if s.sgtdis then 0 else popFlags s s.spUp3) ||| branchFlags (s.mem.getWord k1) ∧
      t.sys.treq = s.sys.treq ||| t.core.tfr ∧
      t.steady = State.steady { s with sys := { s.sys with
        inA := false, inB := s.sys.inA && s.sys.inB, retiDelay := 3, pswHist := none
        resume := wbit s.core.psw 5
        hldenOnce := s.sys.hldenOnce || wbit psw 10 } }

/-- PUSH, POP, SCXT: the stack word, the operand, flags, frame (SCXT with an odd mem is the model's reading, log 26)
(R392, R393, R394, R390, R391, R350). That SCXT with an odd mem is not executed, as R394 says, and not completed, as
U14 has other misaligned reads, is log 26 (DEDUCED). -/
def Obligations.StackInstructions : Prop :=
  (∀ s reg v u k, s.regWord reg = some (v, u) → u.stackAt u.spDown = some k → ∃ t, exec (.push reg) s = .next t ∧
    FlagsWritten (u.pushed k v) t (moveFlags u.core.psw v) 2) ∧
  (∀ s reg k, s.stackAt s.effSp = some k →
    RegDone wordView (.pop reg) s s.popped reg (s.mem.getWord k) (moveFlags s.core.psw (s.mem.getWord k)) .none 2) ∧
  (∀ s reg d v u k, s.regWord reg = some (v, u) → u.stackAt u.spDown = some k →
    RegDone wordView (.scxtRegImm reg d) s (u.pushed k v) reg d (flagsOf u.core.psw) .none 4) ∧
  (∀ s reg mem v r d u k, s.even mem = true → s.regWord reg = some (v, r) → r.wordAt mem = some (d, u) →
    u.stackAt u.spDown = some k →
    RegDone wordView (.scxtRegMem reg mem) s (u.pushed k v) reg d (flagsOf u.core.psw) .none 4) ∧
  (∀ s reg mem, s.even mem = false →
    exec (.scxtRegMem reg mem) s = .next ((s.raise tfrIllopa).advance 4))

/-- The push and pop procedures: SP, the stack word, the limit flags, frame (R52, R53, R390, R391, R51). -/
def Obligations.PushAndPop : Prop :=
  (∀ (s : State) (k : Nat) (v : Word), s.stackAt s.spDown = some k → ∃ t, push v s = .ok ((), t) ∧
    t.core.sp = s.spDown ∧ t.mem.getWord k = v ∧ (∀ c, c ∉ wordCells k → t.mem.get c = s.mem.get c) ∧
    t.core.tfr = s.core.tfr ||| pushFlags s s.spDown ∧ t.core.psw = s.core.psw ∧
    t.core.ip = s.core.ip ∧ t.core.csp = s.core.csp ∧ t.steady = s.steady) ∧
  (∀ (s : State) (k : Nat), s.stackAt s.effSp = some k → ∃ t, pop s = .ok (s.mem.getWord k, t) ∧
    t.core.sp = s.spUp ∧ t.mem = s.mem ∧
    t.core.tfr = s.core.tfr ||| popFlags s s.spUp ∧ t.core.psw = s.core.psw ∧
    t.core.ip = s.core.ip ∧ t.core.csp = s.core.csp ∧ t.steady = s.steady) ∧
  (∀ s : State, s.spDown &&& 0xF001 = 0xF000 ∧ s.spUp &&& 0xF001 = 0xF000)

/-- SRST, IDLE, PWRDN, SRVWDT, DISWDT, EINIT in every state (R451, R452, R453, R454, R455, R456). -/
def Obligations.SystemControl : Prop :=
  (∀ s, exec .srst s = .next { s with sys := { s.sys with resetReq := some .software } }) ∧
  (∀ s, ∃ t, exec .idle s = .next t ∧ t.sys.cpu = .idle ∧ t.core = { s.core with ip := s.core.ip + 4 } ∧ t.mem = s.mem ∧
    t.sfr = s.sfr) ∧
  (∀ s, s.env.nmi = false → ∃ t, exec .pwrdn s = .next t ∧ t.sys.cpu = .powerDown ∧
    t.core = { s.core with ip := s.core.ip + 4 } ∧ t.mem = s.mem ∧ t.sfr = s.sfr) ∧
  (∀ s, s.env.nmi = true → ∃ t, exec .pwrdn s = .next t ∧ Passed s t 4) ∧
  (∀ s, ∃ t, exec .srvwdt s = .next t ∧ t.reg Sfr.wdt = s.reg Sfr.wdtcon &&& 0xFF00 ∧ t.regBit Sfr.wdtcon 1 = false ∧
    t.sys.diswdtOpen = false ∧ t.sys.wdtPre = 0 ∧ t.core = { s.core with ip := s.core.ip + 4 } ∧ t.mem = s.mem ∧
    ∀ r, r ≠ Sfr.wdt → r ≠ Sfr.wdtcon → t.reg r = s.reg r) ∧
  (∀ s, s.sys.diswdtOpen = true → ∃ t, exec .diswdt s = .next t ∧
    Passed { s with sys := { s.sys with wdtDisabled := true } } t 4) ∧
  (∀ s, s.sys.diswdtOpen = false → ∃ t, exec .diswdt s = .next t ∧ Passed s t 4) ∧
  (∀ s, ∃ t, exec .einit s = .next t ∧
    Passed { s with sys := { s.sys with einitDone := true, diswdtOpen := false, rstout := true } } t 4)

/-- NOP: two bytes, IP only, one counted instruction (R457). -/
def Obligations.NullOperation : Prop :=
  (∀ rest, decode (0xCC :: 0x00 :: rest) = .instr .nop rest) ∧
  (∀ b rest, b ≠ 0x00 → decode (0xCC :: b :: rest) = .reserved) ∧
  (∀ s, ∃ t, exec .nop s = .next t ∧ Passed s t 2) ∧
  (∀ s : State, (s.settle .nop).sys.ext = s.sys.ext.tick ∧ s.shiftLag.sys.lag = s.sys.lagNext)

/-- ATOMIC, EXTR, EXTP, EXTPR, EXTS, EXTSR: the extension counter and its kind (R460, R461, R462, R463, R464, R465,
R466). -/
def Obligations.LockedSequences : Prop :=
  (∀ s n, ∃ t, exec (.atomic n) s = .next t ∧
    Passed { s with sys := { s.sys with ext := { count := n, esfr := false, ovr := .none } } } t 2) ∧
  (∀ s n, ∃ t, exec (.extr n) s = .next t ∧
    Passed { s with sys := { s.sys with ext := { count := n, esfr := true, ovr := .none } } } t 2) ∧
  (∀ s rm n, s.bank = true → ∃ t, exec (.extpR rm n) s = .next t ∧
    Passed { s with sys := { s.sys with ext := { count := n, esfr := false, ovr := .page ((s.gpr rm).extractLsb' 0 10) } } } t 2) ∧
  (∀ s p n, ∃ t, exec (.extpImm p n) s = .next t ∧
    Passed { s with sys := { s.sys with ext := { count := n, esfr := false, ovr := .page p } } } t 4) ∧
  (∀ s rm n, s.bank = true → ∃ t, exec (.extprR rm n) s = .next t ∧
    Passed { s with sys := { s.sys with ext := { count := n, esfr := true, ovr := .page ((s.gpr rm).extractLsb' 0 10) } } } t 2) ∧
  (∀ s p n, ∃ t, exec (.extprImm p n) s = .next t ∧
    Passed { s with sys := { s.sys with ext := { count := n, esfr := true, ovr := .page p } } } t 4) ∧
  (∀ s rm n, s.bank = true → ∃ t, exec (.extsR rm n) s = .next t ∧
    Passed { s with sys := { s.sys with ext := { count := n, esfr := false, ovr := .seg (loByte (s.gpr rm)) } } } t 2) ∧
  (∀ s g n, ∃ t, exec (.extsImm g n) s = .next t ∧
    Passed { s with sys := { s.sys with ext := { count := n, esfr := false, ovr := .seg g } } } t 4) ∧
  (∀ s rm n, s.bank = true → ∃ t, exec (.extsrR rm n) s = .next t ∧
    Passed { s with sys := { s.sys with ext := { count := n, esfr := true, ovr := .seg (loByte (s.gpr rm)) } } } t 2) ∧
  (∀ s g n, ∃ t, exec (.extsrImm g n) s = .next t ∧
    Passed { s with sys := { s.sys with ext := { count := n, esfr := true, ovr := .seg g } } } t 4)

/-- ZEROS and ONES: place, constant value, writes ignored (R60, R61). -/
def Obligations.ConstantRegisters : Prop :=
  sfrAt 0xFF1C = some Sfr.zeros ∧ Sfr.ofReg false 0x8E = Sfr.zeros ∧ sfrAt 0xFF1E = some Sfr.ones ∧
  Sfr.ofReg false 0x8F = Sfr.ones ∧
  ∀ s : State, s.sfrValue Sfr.zeros = 0 ∧ s.sfrValue Sfr.ones = 0xFFFF ∧
    (s.sys.ext.esfr = false → s.bitWord 0x8E = some (0, s) ∧ s.bitWord 0x8F = some (0xFFFF, s)) ∧
    ∀ v named, s.storeSfr Sfr.zeros v named = s ∧ s.storeSfr Sfr.ones v named = s ∧
      s.sfrStored Sfr.zeros v = some s ∧ s.sfrStored Sfr.ones v = some s

/-- A write to CP: bits 15 to 12 and 0 are fixed, bits 11 to 9 all zero are replaced (R24). -/
def Obligations.ContextPointerWrite : Prop :=
  ∀ (s : State) (v named : Word),
    (v.extractLsb' 9 3 ≠ 0 → (s.storeSfr Sfr.cp v named).core.cp = 0xF#4 ++ v.extractLsb' 1 11 ++ 0#1) ∧
    (v.extractLsb' 9 3 = 0 → (s.storeSfr Sfr.cp v named).core.cp = 0xF#4 ++ 0b11#2 ++ v.extractLsb' 1 9 ++ 0#1)

/-- Writes to and reads of special registers by software (that MDC takes all eight written bits is the model's choice,
log 17) (R30, R33, R45, R49, R51, R52, R53, R56, R57, R58, R59, R550). That MDC takes all eight written bits is log
17 (DESIGN CHOICE). -/
def Obligations.CoreRegisterAccess : Prop :=
  ∀ (s : State) (v named : Word),
    s.storeSfr Sfr.csp v named = s ∧
    (s.storeSfr Sfr.sp v named).core = { s.core with sp := 0xF#4 ++ v.extractLsb' 1 11 ++ 0#1 } ∧
    (s.storeSfr Sfr.stkov v named).core = { s.core with stkov := 0xF#4 ++ v.extractLsb' 1 11 ++ 0#1 } ∧
    (s.storeSfr Sfr.stkun v named).core = { s.core with stkun := 0xF#4 ++ v.extractLsb' 1 11 ++ 0#1 } ∧
    (s.storeSfr Sfr.psw v named).core = { s.core with psw := v &&& 0xFC7F } ∧
    (s.storeSfr Sfr.cp v named).core =
      { s.core with cp :=
          if v.extractLsb' 9 3 = 0 then 0xF#4 ++ 0b11#2 ++ v.extractLsb' 1 9 ++ 0#1 else 0xF#4 ++ v.extractLsb' 1 11 ++ 0#1 } ∧
    (s.storeSfr Sfr.tfr v named).core = { s.core with tfr := v &&& 0xE08F } ∧
    { (s.storeSfr Sfr.tfr v named).sys with wrote := none } =
      { s.sys with treq := (s.sys.treq ||| (v &&& ~~~s.core.tfr)) &&& (v &&& 0xE08F), wrote := none } ∧
    (s.storeSfr Sfr.tfr v named).sys.wrote =
      some { reg := Sfr.tfr, word := v &&& 0xE08F, same := named &&& 0xE08F, lost := 0 } ∧
    (s.sys.einitDone = false →
      (s.storeSfr Sfr.syscon v named).core =
        { s.core with syscon := (s.core.syscon &&& 0x0078) ||| (v &&& 0xFF87) }) ∧
    (∀ n : Fin 4, (s.storeSfr (Sfr.dpp n) v named).core =
      { s.core with dpp := s.core.dpp.set n.val (v &&& 0x03FF) }) ∧
    (s.storeSfr Sfr.mdh v named).core = { s.core with mdh := v, mdc := s.core.mdc ||| 0x10 } ∧
    (s.storeSfr Sfr.mdl v named).core = { s.core with mdl := v, mdc := s.core.mdc ||| 0x10 } ∧
    (s.storeSfr Sfr.mdc v named).core = { s.core with mdc := v &&& 0xFF } ∧
    (s.sys.einitDone = true → s.storeSfr Sfr.syscon v named = s) ∧
    (∀ r : Sfr, (s.coreValue r).isSome = true → (s.storeSfr r v named).mem = s.mem) ∧
    (s.sfrValue Sfr.psw = s.core.psw ∧ s.sfrValue Sfr.cp = s.core.cp ∧ s.sfrValue Sfr.sp = s.core.sp ∧
      s.sfrValue Sfr.stkov = s.core.stkov ∧ s.sfrValue Sfr.stkun = s.core.stkun ∧ s.sfrValue Sfr.mdh = s.core.mdh ∧
      s.sfrValue Sfr.mdl = s.core.mdl ∧ s.sfrValue Sfr.mdc = s.core.mdc ∧ s.sfrValue Sfr.syscon = s.core.syscon ∧
      s.sfrValue Sfr.tfr = s.core.tfr ∧ s.sfrValue Sfr.csp = 0#8 ++ s.core.csp ∧
      ∀ n : Fin 4, s.sfrValue (Sfr.dpp n) = s.core.dpp[n.val]) ∧
    (∀ r : Sfr, s.coreValue r = none → s.portOf r = none →
      r ≠ Sfr.p5 → r ≠ Sfr.s0bg → r ≠ Sfr.sscbr → r ≠ Sfr.ssccon → r ≠ Sfr.ssctb → s.sfrValue r = s.reg r) ∧
    s.afterSfrRead Sfr.mdl = { s with core := { s.core with mdc := s.core.mdc &&& 0xFFEF } } ∧
    ∀ r : Sfr, r ≠ Sfr.mdl → r ≠ Sfr.s0rbuf → r ≠ Sfr.sscrb → r ≠ Sfr.addat → r ≠ Sfr.addat2 → s.afterSfrRead r = s

/-- Writes to peripheral registers that `plainSfr` lists: only writable bits, only that register (SSCBR and ADDAT2: logs
66, 79) (R62, R92, R93). The first clause leaves out the registers whose write has another effect: the direction registers,
SSCCON, S0TBUF, S0BG, SSCTB, ADCON, T0, T1, T7, T8, the PPx, the PWx and the PECCx. It covers a write of SSCBR with SSCEN = 1,
which R746 says never to make: that the reload value takes it at once is log 66 (DESIGN CHOICE); and a write of ADDAT2 that
changes CHNR in the sample phase of an injected conversion (U34): that it is made is log 79 (DESIGN CHOICE). -/
def Obligations.PlainRegisterWrites : Prop :=
  (∀ (s : State) (r q : Sfr) (v named : Word), s.coreValue r = none → plainSfr r = true →
    (s.storeSfr r v named).reg q = if q = r then (s.reg r &&& ~~~r.mask) ||| (v &&& r.mask) else s.reg q) ∧
  (∀ (s : State) (r : Sfr) (v named : Word), s.coreValue r = none →
    (s.storeSfr r v named).core = s.core ∧ (s.storeSfr r v named).mem = s.mem)

/-- A word access to an odd address sets ILLOPA and touches no memory (that the instruction completes with a free value
is the reading of U14, log 24) (R104, R550, R551). -/
def Obligations.MisalignedWord : Prop :=
  ∀ (s : State) (a v : Word), (s.dataAddr a).toNat % 2 = 1 → ∃ t,
    s.wordAt a = some (Config.freeWord .oddRead s.free (s.dataAddr a).toNat, t) ∧ s.wordStored a v = some t ∧
    t.core = { s.core with tfr := s.core.tfr ||| 0x0004 } ∧ t.mem = s.mem ∧
    (wbit s.core.tfr 2 = false → wbit t.sys.treq 2 = true)

/-- Registers that do not exist fault; a port that carries the bus cannot be written (the faults are the model's, log
31) (R87, R89, R606). -/
def Obligations.RegisterStops : Prop :=
  (∀ s q d, isGprCode q = false → 16 ≤ (s.regNum q).val → (s.regNum q).row? = none →
    exec (.movRegImm q d) s = .fault (.noRegister (s.regNum q).addr)) ∧
  (∀ s q d, isGprCode q = false → (s.regNum q).val < 16 →
    exec (.movRegImm q d) s = .fault (.reservedArea (s.regNum q).addr)) ∧
  (∀ s d, s.sys.ext.esfr = false → s.busUsesP0 false = true →
    exec (.movRegImm 0x80 d) s = .refused .busPortWrite)

/-- The byte GPRs are the halves of R0 to R7 (R21, R22, R25). -/
def Obligations.ByteRegisters : Prop :=
  ∀ (s : State) (n : Gpr), n.toNat < 8 →
    s.gprB (2 * n) = loByte (s.gpr n) ∧ s.gprB (2 * n + 1) = hiByte (s.gpr n) ∧
    (∀ v, (s.storeCell (s.gprBAt (2 * n)) v).mem.getWord (s.gprAt n) = mkWord v (hiByte (s.gpr n))) ∧
    (∀ v, (s.storeCell (s.gprBAt (2 * n + 1)) v).mem.getWord (s.gprAt n) = mkWord (loByte (s.gpr n)) v)

/-- With STKSZ 000 to 100 every stack access lies in the internal RAM, word aligned, and push and pop complete (R47,
R55, R390, R391). -/
def Obligations.StackInsideRam : Prop :=
  (∀ (n : Nat) (k : Nat) (sp : Word), n < 5 → stackBits n = some k →
    0xF600 ≤ (stackAddr k sp).toNat ∧ (stackAddr k sp).toNat < 0xFE00 ∧
      (stackAddr k sp).toNat % 2 = sp.toNat % 2 ∧ (stackAddr k (stackNorm sp)).toNat % 2 = 0) ∧
  (∀ s : State, fieldNat s.effMap.syscon 13 3 < 5 →
    (∃ k, s.stackAt s.spDown = some k ∧ k % 2 = 0) ∧
    (∃ k, s.stackAt s.effSp = some k ∧ (s.effSp.toNat % 2 = 0 → k % 2 = 0)) ∧
    (∃ k, s.stackAt s.spUp = some k ∧ k % 2 = 0) ∧
    (∀ v, ∃ t, push v s = .ok ((), t)) ∧ ∃ v t, pop s = .ok (v, t))

/-- A step runs the decoded instruction (the model's choices: its clocks pass after its writes, log 15; one that waits
for the bus starts again, log 20) (R501, R176, R65). That the writes come before the clocks (`finish`) is DESIGN
CHOICE of log 15, that a waiting instruction starts again (`stall`) that of log 20. The instruction runs in the state `u`
that its fetch leaves, which differs from `s` in the record of the external bus only. -/
def Obligations.StepRunsDecoded : Prop :=
  ∀ (s : State) (bytes : List Byte) (i : Instr) (rest : List Byte) (u : State), s.boundary = none → wbit s.core.ip 0 = false → fetch s = .ok (some bytes, u) →
    decode bytes = .instr i rest →
    ((mulInstr i = none ∧ s.sys.resume = false) ∨
      (mulInstr i ≠ none ∧ (s.mulOpen = false ∨ Config.freeBool .interruptMul s.free 0 = false))) →
    u = { s with bus := u.bus } ∧
    step s =
      match exec i { u with sys := { u.sys with waiting := false } } with
      | .next t => .next (if t.sys.waiting then u.stall t.bus.pending else t.finish i)
      | .fault f => .fault f
      | .refused r => .refused r

/-- An undefined opcode or a damaged protected instruction sets its trap flag and does nothing else (refused: log 22;
a deferred stack trap stays so: log 64) (R550, R551, R560, R547). Where the trap cannot be entered the step is refused
(log 22). That `t.sys` keeps `deferred`, the one-instruction deferral of a stack trap by ADD or SUB on SP (R555, R556), is
log 64 (DESIGN CHOICE). -/
def Obligations.UndefinedInstruction : Prop :=
  ∀ (s : State) (bytes : List Byte) (u : State) (mask : Word), s.boundary = none → wbit s.core.ip 0 = false → fetch s = .ok (some bytes, u) →
    (decode bytes = .undefinedOpcode ∧ mask = (0x0080 : Word) ∨ decode bytes = .protectionFault ∧ mask = 0x0008) →
    (s.sys.inA = false → s.sys.inB = false → (s.core.tfr &&& mask = 0 ∨ s.sys.treq &&& mask ≠ 0) →
      ∃ t : State, step s = .next t.elapse ∧ t.core = { s.core with tfr := s.core.tfr ||| mask } ∧
        t.sys = { s.sys with treq := s.sys.treq ||| (mask &&& ~~~s.core.tfr), waiting := false } ∧ t.mem = s.mem ∧
        t.sfr = s.sfr ∧ (classATrap t.sys.treq = none → t.trapDue = some (0x0A, 0x008F, false))) ∧
    (s.sys.inA = true ∨ s.sys.inB = true ∨ (s.core.tfr &&& mask ≠ 0 ∧ s.sys.treq &&& mask = 0) →
      step s = .refused .heldClassBTrap)

/-- Entering a hardware trap: what is saved, the status, the vector (the model's: MULIP, log 5; waiting multiply, log
11; SGTDIS = 1, logs 43, 8; history, log 65) (R540, R543, R547, R550). MULIP 0 of the new PSW is log 5 (DEDUCED);
that the record of a multiply or divide that was to be resumed keeps that the trap held it up (`heldFrames`) is log 11
(DEDUCED). With SGTDIS
= 1 CSP is cleared, as R30 and C23 of 90_conflicts.md have it, against the remark of R540: log 43 (DEDUCED). So the vector
is fetched in segment 0 under every mapping that the fetch may use (R121). Which SGTDIS an entry right behind a write of
SYSCON sees is log 8 (DESIGN CHOICE). That the arbitration history of a PSW write is dropped is log 65 (DESIGN CHOICE). -/
def Obligations.TrapEntry : Prop :=
  ∀ (s : State) (n : Nat) (mask : Word) (classA : Bool), s.sys.resetReq = none → s.sys.cpu = .running → s.unitStop = none → s.sys.waiting = false →
  s.sys.pecWait = none → s.trapDue = some (n, mask, classA) →
    let psw : Word := 0xF000 ||| (s.core.psw &&& 0x0FDF)
    let u : State := { s with sys := { s.sys with
      inA := s.sys.inA || classA, inB := s.sys.inB || !classA, resume := false, suspended := s.heldFrames
      ext := { count := 0, esfr := false, ovr := .none }, pswHist := none
      hldenOnce := s.sys.hldenOnce || wbit s.core.psw 10 } }
    (∀ k1 k2 k3, s.sgtdis = false → s.stackAt s.spDown = some k1 → s.stackAt s.spDown2 = some k2 →
      s.stackAt s.spDown3 = some k3 → ∃ t : State, step s = .next t.afterInjected ∧
        Called3 u t k1 k2 k3 s.core.psw (s.core.csp.setWidth 16) s.core.ip 0 (BitVec.ofNat 16 (4 * n)) psw ∧
        (∀ m, t.codeAddr m t.core.ip = 0#8 ++ BitVec.ofNat 16 (4 * n)) ∧
        t.sys.treq = (s.sys.treq &&& ~~~mask) ||| (t.core.tfr &&& ~~~s.core.tfr)) ∧
    (∀ k1 k2, s.sgtdis = true → s.stackAt s.spDown = some k1 → s.stackAt s.spDown2 = some k2 →
      ∃ t : State, step s = .next t.afterInjected ∧
        Called2 u t k1 k2 s.core.psw s.core.ip 0 (BitVec.ofNat 16 (4 * n)) psw ∧
        (∀ m, t.codeAddr m t.core.ip = 0#8 ++ BitVec.ofNat 16 (4 * n)) ∧
        t.sys.treq = (s.sys.treq &&& ~~~mask) ||| (t.core.tfr &&& ~~~s.core.tfr))

/-- Entering an interrupt: what is saved, the new level, the vector (the model's: when, log 9; MULIP, logs 5, 11; SGTDIS
= 1, logs 43 and 8; PSW history, log 65) (R501, R540, R542, R511). `taken` is the free choice of log 9. MULIP of the new
PSW: 0 is log 5, 1 where a multiply or divide was to be resumed log 11 (both DEDUCED). With SGTDIS = 1 CSP
is cleared, as R30 and C23 of 90_conflicts.md have it, against the remark of R540: log 43 (DEDUCED). So the vector is fetched
in segment 0 under every mapping that the fetch may use (R121). Which SGTDIS an entry right behind a write of SYSCON sees
is log 8 (DESIGN CHOICE). That the arbitration history of a PSW write is dropped is log 65 (DESIGN CHOICE). -/
def Obligations.InterruptEntry : Prop :=
  ∀ (s : State) (ic : Sfr) (vec level : Nat), s.atRound → s.service = .interrupt ic vec level →
    let taken := Config.freeBool .takeRequest s.free 0
    let r := s.setRegBit ic 7 false
    let psw : Word := (BitVec.ofNat 16 (level % 16) <<< 12) ||| (s.core.psw &&& 0x0FDF) |||
      (if s.sys.resume then 0x20 else 0)
    let u : State := { r with sys := { s.sys with
      resume := false, ext := { count := 0, esfr := false, ovr := .none }, pswHist := none
      hldenOnce := s.sys.hldenOnce || wbit s.core.psw 10 } }
    (∀ k1 k2 k3, r.sgtdis = false → r.stackAt s.spDown = some k1 → r.stackAt s.spDown2 = some k2 →
      r.stackAt s.spDown3 = some k3 → ∃ t : State, step s = (if taken then .next t.afterInjected else s.runNext) ∧
        Called3 u t k1 k2 k3 s.core.psw (s.core.csp.setWidth 16) s.core.ip 0 (BitVec.ofNat 16 (4 * vec)) psw ∧
        (∀ m, t.codeAddr m t.core.ip = 0#8 ++ BitVec.ofNat 16 (4 * vec))) ∧
    (∀ k1 k2, r.sgtdis = true → r.stackAt s.spDown = some k1 → r.stackAt s.spDown2 = some k2 →
      ∃ t : State, step s = (if taken then .next t.afterInjected else s.runNext) ∧
        Called2 u t k1 k2 s.core.psw s.core.ip 0 (BitVec.ofNat 16 (4 * vec)) psw ∧
        (∀ m, t.codeAddr m t.core.ip = 0#8 ++ BitVec.ofNat 16 (4 * vec)))

/-- The round serves the enabled request of the highest priority, above the CPU level, as an interrupt or by the PEC
(two lower requests that tie: log 37) (R502, R511, R520, R521, R530, R924). That two enabled requests below the
winner may share level and group, which R511 forbids (U22), is log 37 (DEDUCED). -/
def Obligations.HighestRequestServed : Prop :=
  ∀ s : State,
    (∀ ic vec level, s.service = .interrupt ic vec level →
      Wins s ic vec level ∧ (14 ≤ level → s.pecLeft (s.pecChannel ic) = 0)) ∧
    (∀ ic ch, s.service = .pec ic ch →
      ∃ vec level, Wins s ic vec level ∧ 14 ≤ level ∧ ch = s.pecChannel ic ∧ s.pecLeft ch ≠ 0) ∧
    (∀ ic vec level, Wins s ic vec level →
      s.service = if 14 ≤ level ∧ s.pecLeft (s.pecChannel ic) ≠ 0 then .pec ic (s.pecChannel ic)
        else .interrupt ic vec level)

/-- A PEC transfer, word or byte, in every area: what is moved, pointers, counter, request flag (that it is made at this
boundary is a free choice, log 9) (R530, R531, R532). -/
def Obligations.PecTransfer : Prop :=
  (∀ (s : State) (ic : Sfr) (ch : Fin 8) (k j : Nat), s.pecLeft ch ≠ 0 → ic ≠ Sfr.pecc ch →
    s.cellAt false (segment0 (s.srcp ch)) = some k → s.writableAt (segment0 (s.dstp ch)) = some j →
    (wbit (s.reg (Sfr.pecc ch)) 8 = false → wbit (s.srcp ch) 0 = false → wbit (s.dstp ch) 0 = false →
      (∀ c ∈ wordCells j, c ∉ pecCells ch) → ∃ t, pecTransfer ic ch s = .ok ((), t) ∧
        t.mem.getWord j = s.mem.getWord k ∧ PecDone s t ic ch 2 (wordCells j) ∧
        (s.atRound → s.service = .pec ic ch →
        step s = if Config.freeBool .takeRequest s.free 0 then .next t.afterInjected else s.runNext)) ∧
    (wbit (s.reg (Sfr.pecc ch)) 8 = true → j ∉ pecCells ch → ∃ t, pecTransfer ic ch s = .ok ((), t) ∧
        t.mem.get j = s.mem.get k ∧ PecDone s t ic ch 1 [j] ∧
        (s.atRound → s.service = .pec ic ch →
        step s = if Config.freeBool .takeRequest s.free 0 then .next t.afterInjected else s.runNext))) ∧
  (∀ (s : State) (ic : Sfr) (ch : Fin 8),
    let con := s.reg (Sfr.pecc ch)
    (∀ v u x, wbit con 8 = false → wbit (s.srcp ch) 0 = false → wbit (s.dstp ch) 0 = false →
      s.wordIn (segment0 (s.srcp ch)) = some (v, u) → u.wordInto (segment0 (s.dstp ch)) v = some x →
      pecTransfer ic ch s =
        .ok ((), (x.pecStepped ch (fieldNat con 9 2) (s.srcp ch) (s.dstp ch) 2).pecCount ic ch (s.pecLeft ch))) ∧
    (∀ v u x, wbit con 8 = true →
      s.byteIn (segment0 (s.srcp ch)) = some (v, u) → u.byteInto (segment0 (s.dstp ch)) v = some x →
      pecTransfer ic ch s =
        .ok ((), (x.pecStepped ch (fieldNat con 9 2) (s.srcp ch) (s.dstp ch) 1).pecCount ic ch (s.pecLeft ch))) ∧
    (wbit con 8 = false → (wbit (s.srcp ch) 0 || wbit (s.dstp ch) 0) = true →
      pecTransfer ic ch s = .ok ((), s.raise tfrIllopa)))

/-- Inside a locked sequence no interrupt, no PEC transfer and no class A trap is taken (R460, R547). -/
def Obligations.LockedSequenceHolds : Prop :=
  (∀ s : State, s.sys.ext.count ≠ 0 → s.roundStep = none ∧ s.mulOpen = false ∧
    ∀ n mask classA, s.trapDue = some (n, mask, classA) → classA = false) ∧
  (∀ e : Ext, 1 < e.count → e.tick = { e with count := e.count - 1 }) ∧
  (∀ e : Ext, e.count ≤ 1 → e.tick = { count := 0, esfr := false, ovr := .none }) ∧
  (∀ (s : State) (i : Instr), isExtension i = false → (s.settle i).sys.ext = s.sys.ext.tick)

/-- What a software reset leaves (what happens outside in its clocks, and that an external write may be aborted, are
free: logs 35 and 55) (R64, R451, R903, R902). -/
def Obligations.SoftwareReset : Prop :=
  ∀ s : State, s.sys.resetReq = some .software →
    let u := (s.abortBus .software).resetPass
    ∃ t, step s = .next t ∧
    t.core =
      { ip := 0, csp := 0, psw := 0, cp := 0xFC00, sp := 0xFC00, stkov := 0xFA00, stkun := 0xFC00
        dpp := #v[0, 1, 2, 3], mdh := 0, mdl := 0, mdc := 0, tfr := 0, syscon := resetSyscon u.env.ea u.env.port0 } ∧
    (∀ n ∈ nodes, t.reg n.1 = 0) ∧ t.sys.treq = 0 ∧ t.sys.ext.count = 0 ∧ t.sys.einitDone = false ∧
    t.sys.wdtDisabled = false ∧ t.sys.diswdtOpen = true ∧ t.sys.rstout = false ∧ t.reg Sfr.wdtcon = 0 ∧
    t.reg Sfr.wdt = 0 ∧ t.sys.resetReq = none ∧ t.sys.cpu = .running ∧ t.mem = u.mem ∧
    (s.bus.undo = none → s.sys.waiting = false → s.sys.pecWait = none →
      ∀ k, 0x1000000 ≤ k → k < 0x10000000 → t.mem.get k = s.mem.get k)

/-- Power down stands still; idle ends when something requests (which traps, and an NMI edge with its flag set, end it
is the model's reading, log 40) (R452, R453). Idle mode ending by a trap other than an edge at NMI, or by an edge
that finds TFR.NMI set, is log 40 (DEDUCED); that the arbitration history of a PSW write is dropped when time passes
is log 65 (DESIGN CHOICE). -/
def Obligations.StoppedStates : Prop :=
  (∀ s : State, s.sys.resetReq = none → s.sys.cpu = .powerDown → ∃ t, step s = .next t ∧ t.core = s.core ∧
    t.sfr = s.sfr ∧ t.clock = s.clock ∧ t.sys.cpu = .powerDown ∧ t.sys.treq = s.sys.treq) ∧
  (∀ s : State, s.sys.resetReq = none → s.sys.cpu = .idle → s.unitStop = none → s.sys.pecWait = none →
    let up : State := { s with sys := { s.sys with cpu := .running, idleLocked := false, nmiEdge := false } }
    let calls : Prop := (∃ n ∈ nodes, s.regBit n.1 7 = true ∧ s.regBit n.1 6 = true) ∨ s.sys.nmiEdge = true ∨
      wbit s.sys.treq 15 = true ∨ ∃ d, s.trapDue = some d
    (calls → (s.sys.idleLocked = true ∨ (s.trapDue = none ∧ s.service = .none)) → step s = .next up) ∧
    (s.sys.idleLocked = false →
      (∀ n mask classA, s.trapDue = some (n, mask, classA) → step s = up.inject (takeTrap n mask classA)) ∧
      (∀ ic vec level, s.trapDue = none → s.service = .interrupt ic vec level →
        step s = up.inject (takeInterrupt ic vec level)) ∧
      (∀ ic ch, s.trapDue = none → s.service = .pec ic ch →
        step s = (if s.sys.nmiEdge then up else s).injectPec ic ch)) ∧
    (¬ calls → step s = .next { s.elapse with sys := { s.elapse.sys with pswHist := none } }))

/-- A few instruction words written out from the spec's encodings (R161, R162, R177, R178, R190). -/
def Obligations.DecodeWords : Prop :=
  decode [0x00, 0x12] = .instr (.addRR 1 2) [] ∧ decode [0x28, 0x37] = .instr (.subR3 3 7) [] ∧
  decode [0x08, 0x1E] = .instr (.addRIP 1 2) [] ∧ decode [0x96, 0xF2, 0x10, 0x00] = .instr (.cmpi2R16 2 0x10) [] ∧
  decode [0x7C, 0x21] = .instr (.shrR4 1 2) [] ∧ decode [0xE6, 0xF0, 0x34, 0x12] = .instr (.movRegImm 0xF0 0x1234) [] ∧
  decode [0xF6, 0xF1, 0x00, 0x00] = .instr (.movMemReg 0 0xF1) [] ∧ decode [0xB8, 0x21] = .instr (.movIR 1 2) [] ∧
  decode [0xD1, 0x20] = .instr (.atomic 3) [] ∧ decode [0xB7, 0x48, 0xB7, 0xB7] = .instr .srst [] ∧
  decode [0xB7, 0x48, 0xB7, 0xB6] = .protectionFault ∧ decode [0x44, 0x00, 0x00, 0x00] = .undefinedOpcode ∧
  decode [0xCC, 0x01] = .reserved ∧
  decode [0x60, 0x12] = .instr (.andRR 1 2) [] ∧ decode [0x67, 0xF0, 0x0F, 0x00] = .instr (.andbRegImm 0xF0 0x0F) [] ∧
  decode [0x91, 0x40] = .instr (.cpl 4) [] ∧ decode [0xFF, 0xF2] = .instr (.bset 0xF2 15) [] ∧
  decode [0x4A, 0xF1, 0xF2, 0x04] = .instr (.bmov 0xF2 4 0xF1 0) [] ∧
  decode [0x0A, 0xF0, 0x0F, 0x0A] = .instr (.bfldl 0xF0 0x0F 0x0A) [] ∧
  decode [0xEA, 0x20, 0x00, 0x02] = .instr (.jmpa .z 0x0200) [] ∧ decode [0x1D, 0xFE] = .instr (.jmpr .net 0xFE) [] ∧
  decode [0x8A, 0x88, 0x03, 0x10] = .instr (.jb 0x88 1 0x03) [] ∧ decode [0xFA, 0x01, 0x00, 0x80] = .instr (.jmps 1 0x8000) [] ∧
  decode [0xCA, 0x90, 0x00, 0x20] = .instr (.calla .nc 0x2000) [] ∧ decode [0xBB, 0x08] = .instr (.callr 0x08) [] ∧
  decode [0x9B, 0x20] = .instr (.trap 0x10) [] ∧ decode [0xCB, 0x00] = .instr .ret [] ∧ decode [0xFB, 0x88] = .instr .reti [] ∧
  decode [0xEC, 0xF1] = .instr (.push 0xF1) [] ∧ decode [0xC6, 0x08, 0x00, 0xFB] = .instr (.scxtRegImm 0x08 0xFB00) [] ∧
  decode [0x0B, 0x01] = .instr (.mul 0 1) [] ∧ decode [0x6B, 0x33] = .instr (.divl 3) [] ∧
  decode [0xD0, 0x20] = .instr (.movbsRR 0 2) [] ∧
  decode [0xDC, 0x4F] = .instr (.extpR 15 1) [] ∧ decode [0xD7, 0x50, 0x40, 0x00] = .instr (.extpImm 0x40 2) []

/-- Decoding an encoded well-formed instruction gives it back, whatever follows (R161, R163, R164, R166, R168, R170,
R175, R176, R190). -/
def Obligations.DecodeEncode : Prop :=
  ∀ (i : Instr) (rest : List Byte), i.wf = true → decode (encode i ++ rest) = .instr i rest

/-- Every step keeps the extension counter in its range 0 to 4 (R460). -/
def Obligations.StepKeepsLock : Prop :=
  ∀ s t : State, s.sys.ext.count ≤ 4 → step s = .next t → t.sys.ext.count ≤ 4

/-- Every step keeps memory in its canonical form and the hard-wired bits of the core registers (R24, R33, R49, R51,
R52, R53, R58, R550). -/
def Obligations.StepKeepsInv : Prop :=
  ∀ s t : State, s.Inv → step s = .next t → t.Inv

/-- The state after reset has the invariant and the reset values (SYSCON, BUSCON0, RP0H for the derivative and pins of
log 2) (R64, R915). SYSCON, BUSCON0 and RP0H depend on the derivative and the pins, which are the choice of log 2
(DESIGN CHOICE); with them they are those of R915 (b). -/
def Obligations.ResetInv : Prop :=
  State.reset.Inv ∧
  State.reset.core =
    { ip := 0, csp := 0, psw := 0, cp := 0xFC00, sp := 0xFC00, stkov := 0xFA00, stkun := 0xFC00
      dpp := #v[0, 1, 2, 3], mdh := 0, mdl := 0, mdc := 0, tfr := 0, syscon := 0 } ∧
  State.reset.sys.ext.count = 0 ∧ State.reset.sys.treq = 0 ∧ (∀ n ∈ nodes, State.reset.reg n.1 = 0) ∧
  State.reset.reg (Sfr.buscon 0) = 0x06C0 ∧ State.reset.reg Sfr.rp0h = 0x00FF
end

