-- ==== Sys2Proof/Laws/Act.lean ====
section
/-! SUPPORT. How a computation over the state runs, step by step, and what it means that it keeps a property. -/
namespace Sys2Proof.Machine

@[simp] theorem Act.pure_run {α : Type} (v : α) (s : State) : (pure v : Act α) s = .ok (v, s) := rfl

/-- A sequence runs its first part, and if that ends, its second part on what it left. -/
theorem Act.bind_run {α β : Type} (a : Act α) (f : α → Act β) (s : State) :
    (a >>= f) s = match a s with | .ok (v, t) => f v t | .error e => .error e := by
  show StateT.bind a f s = _
  simp only [StateT.bind, bind, Except.bind]
  cases a s <;> rfl

@[simp] theorem look_run {α : Type} (f : State → α) (s : State) : look f s = .ok (f s, s) := rfl

@[simp] theorem change_run (f : State → State) (s : State) : change f s = .ok ((), f s) := rfl

@[simp] theorem refuse_run {α : Type} (r : Refusal) (s : State) : (refuse r : Act α) s = .error (.refused r) := rfl

@[simp] theorem faultAt_run {α : Type} (f : Fault) (s : State) : (faultAt f : Act α) s = .error (.fault f) := rfl

@[simp] theorem waitBus_run {α : Type} (w : List (Nat × Byte)) (s : State) :
    (waitBus w : Act α) s = .error (.wait w) := rfl

@[simp] theorem Act.look_bind {α β : Type} (f : State → α) (g : α → Act β) (s : State) :
    (look f >>= g) s = g (f s) s := by rw [Act.bind_run]; rfl

@[simp] theorem Act.change_bind {β : Type} (f : State → State) (g : Unit → Act β) (s : State) :
    (change f >>= g) s = g () (f s) := by rw [Act.bind_run]; rfl

@[simp] theorem Act.pure_bind' {α β : Type} (v : α) (g : α → Act β) : ((pure v : Act α) >>= g) = g v := rfl

@[simp] theorem Act.refuse_bind {α β : Type} (r : Refusal) (g : α → Act β) (s : State) :
    ((refuse r : Act α) >>= g) s = .error (.refused r) := by rw [Act.bind_run]; rfl

@[simp] theorem Act.faultAt_bind {α β : Type} (r : Fault) (g : α → Act β) (s : State) :
    ((faultAt r : Act α) >>= g) s = .error (.fault r) := by rw [Act.bind_run]; rfl

/-- A part that ends in a known state. -/
theorem Act.bind_ok {α β : Type} {a : Act α} {s t : State} {v : α} (h : a s = .ok (v, t)) (g : α → Act β) :
    (a >>= g) s = g v t := by rw [Act.bind_run, h]

/-- A part that stops. -/
theorem Act.bind_error {α β : Type} {a : Act α} {s : State} {e : Stop} (h : a s = .error e) (g : α → Act β) :
    (a >>= g) s = .error e := by rw [Act.bind_run, h]

@[simp] theorem Act.ite_run {α : Type} (c : Prop) [Decidable c] (a b : Act α) (s : State) :
    (if c then a else b) s = if c then a s else b s := by split <;> rfl

/-- What a sequence that ends did. -/
theorem Act.bind_eq_ok {α β : Type} {a : Act α} {f : α → Act β} {s u : State} {w : β}
    (h : (a >>= f) s = .ok (w, u)) : ∃ v t, a s = .ok (v, t) ∧ f v t = .ok (w, u) := by
  rw [Act.bind_run] at h
  cases hr : a s with
  | error e => rw [hr] at h; cases h
  | ok p => rw [hr] at h; exact ⟨p.1, p.2, rfl, h⟩

/-- A computation keeps `P`: wherever it ends, `P` still holds. -/
def Keeps {α : Type} (P : State → Prop) (a : Act α) : Prop :=
  ∀ s v t, P s → a s = .ok (v, t) → P t

theorem Keeps.pure {α : Type} {P : State → Prop} (v : α) : Keeps P (pure v : Act α) := by
  intro s w t hp h; cases h; exact hp

theorem Keeps.look {α : Type} {P : State → Prop} (f : State → α) : Keeps P (look f) := by
  intro s w t hp h; cases h; exact hp

theorem Keeps.refuse {α : Type} {P : State → Prop} (r : Refusal) : Keeps P (refuse r : Act α) := by
  intro s w t _ h; cases h

theorem Keeps.faultAt {α : Type} {P : State → Prop} (r : Fault) : Keeps P (faultAt r : Act α) := by
  intro s w t _ h; cases h

theorem Keeps.waitBus {α : Type} {P : State → Prop} (w : List (Nat × Byte)) : Keeps P (waitBus w : Act α) := by
  intro s w t _ h; cases h

theorem Keeps.change {P : State → Prop} {f : State → State} (h : ∀ s, P s → P (f s)) : Keeps P (change f) := by
  intro s w t hp hs; cases hs; exact h s hp

theorem Keeps.bind {α β : Type} {P : State → Prop} {a : Act α} {f : α → Act β} (ha : Keeps P a)
    (hf : ∀ v, Keeps P (f v)) : Keeps P (a >>= f) := by
  intro s w u hp h
  obtain ⟨v, t, h1, h2⟩ := Act.bind_eq_ok h
  exact hf v t w u (ha s v t hp h1) h2

theorem Keeps.ite {α : Type} {P : State → Prop} {c : Prop} [Decidable c] {a b : Act α} (ha : Keeps P a)
    (hb : Keeps P b) : Keeps P (if c then a else b) := by split <;> assumption

/-- The next state of a meaning: its computation ended there, or it waits. -/
theorem Act.toOutcome_next {a : Act Unit} {s t : State} (h : a.toOutcome s = .next t) :
    a s = .ok ((), t) ∨ ∃ w, a s = .error (.wait w) ∧ t = s.waits w := by
  unfold Act.toOutcome at h
  split at h <;> simp_all

@[simp] theorem Act.toOutcome_ok {a : Act Unit} {s t : State} (h : a s = .ok ((), t)) : a.toOutcome s = .next t := by
  unfold Act.toOutcome; rw [h]

end Sys2Proof.Machine
end

