-- ==== Sys2Proof/Laws/Memory.lean ====
section
/-! SUPPORT. The laws of memory and of the register file: reading after writing, and the canonical form. -/
namespace Sys2Proof.Machine

/-- Whether a cell lies below every cell of the list. -/
def Memory.above (k : Nat) (m : Memory) : Prop := ∀ c ∈ m, k < c.1

theorem Memory.get_insert (m : Memory) (k j : Nat) (v : Byte) :
    (Memory.insert k v m).get j = if j = k then v else m.get j := by
  induction m with
  | nil => simp [Memory.insert, Memory.get, eq_comm]
  | cons c m ih =>
    obtain ⟨a, b⟩ := c
    simp only [Memory.insert]
    split
    · simp only [Memory.get]; grind
    · split <;> simp only [Memory.get] <;> grind

theorem Memory.risingFrom_weaken {l : Option Nat} {m : Memory} (h : Memory.risingFrom l m = true) :
    Memory.risingFrom none m = true := by
  cases m with
  | nil => rfl
  | cons c m => simp only [Memory.risingFrom, Bool.and_eq_true] at h ⊢; exact ⟨trivial, h.2⟩

theorem Memory.risingFrom_lt {k : Nat} {m : Memory} (h : Memory.risingFrom (some k) m = true) :
    ∀ c ∈ m, k < c.1 := by
  induction m generalizing k with
  | nil => simp
  | cons c m ih =>
    simp only [Memory.risingFrom, Bool.and_eq_true, decide_eq_true_eq] at h
    intro d hd
    rcases List.mem_cons.mp hd with rfl | hd
    · exact h.1
    · exact Nat.lt_trans h.1 (ih h.2 d hd)

theorem Memory.get_of_above {k : Nat} {m : Memory} (h : ∀ c ∈ m, k < c.1) : m.get k = Memory.default := by
  induction m with
  | nil => rfl
  | cons c m ih =>
    have := h c (by simp)
    simp only [Memory.get]
    rw [if_neg (by omega), ih (fun d hd => h d (List.mem_cons_of_mem _ hd))]

theorem Memory.get_filter (m : Memory) (k j : Nat) :
    Memory.get (m.filter (fun c => c.1 != k)) j = if j = k then Memory.default else m.get j := by
  induction m with
  | nil => simp [Memory.get]
  | cons c m ih =>
    obtain ⟨a, b⟩ := c
    by_cases h : a = k
    · subst h; simp only [List.filter_cons, bne_self_eq_false, Memory.get]; grind
    · have hb : (a != k) = true := by simpa using h
      simp only [List.filter_cons, hb, if_true, Memory.get]; grind

/-- Reading a cell after writing one. -/
theorem Memory.get_set (m : Memory) (k j : Nat) (v : Byte) :
    (m.set k v).get j = if j = k then v else m.get j := by
  unfold Memory.set
  split
  · rename_i h; rw [Memory.get_filter, h]
  · exact Memory.get_insert m k j v

@[simp] theorem Memory.get_set_same (m : Memory) (k : Nat) (v : Byte) : (m.set k v).get k = v := by
  rw [Memory.get_set]; simp

theorem Memory.get_set_other (m : Memory) {k j : Nat} (v : Byte) (h : j ≠ k) : (m.set k v).get j = m.get j := by
  rw [Memory.get_set, if_neg h]

theorem Memory.risingFrom_filter {l : Option Nat} {m : Memory} (p : Host.Cell → Bool)
    (h : Memory.risingFrom l m = true) : Memory.risingFrom l (m.filter p) = true := by
  induction m generalizing l with
  | nil => rfl
  | cons c m ih =>
    obtain ⟨a, b⟩ := c
    simp only [Memory.risingFrom, Bool.and_eq_true] at h
    simp only [List.filter_cons]
    split
    · simp only [Memory.risingFrom, Bool.and_eq_true]; exact ⟨h.1, ih h.2⟩
    · have h2 := ih h.2
      cases hm : m.filter p with
      | nil => rfl
      | cons d m' =>
        rw [hm] at h2
        obtain ⟨x, y⟩ := d
        simp only [Memory.risingFrom, Bool.and_eq_true, decide_eq_true_eq] at h2 ⊢
        refine ⟨?_, h2.2⟩
        cases l with
        | none => rfl
        | some l => simp only [decide_eq_true_eq] at h ⊢; omega

theorem Memory.risingFrom_insert {l : Option Nat} {m : Memory} {k : Nat} (v : Byte)
    (h : Memory.risingFrom l m = true) (hk : ∀ x, l = some x → x < k) :
    Memory.risingFrom l (Memory.insert k v m) = true := by
  induction m generalizing l with
  | nil =>
    simp only [Memory.insert, Memory.risingFrom, Bool.and_true]
    cases l with
    | none => rfl
    | some x => simpa using hk x rfl
  | cons c m ih =>
    obtain ⟨a, b⟩ := c
    simp only [Memory.risingFrom, Bool.and_eq_true] at h
    simp only [Memory.insert]
    split
    · rename_i hlt
      simp only [Memory.risingFrom, Bool.and_eq_true, decide_eq_true_eq]
      refine ⟨?_, hlt, h.2⟩
      cases l with
      | none => rfl
      | some x => simpa using hk x rfl
    · split
      · rename_i he
        subst he
        simp only [Memory.risingFrom, Bool.and_eq_true]
        refine ⟨?_, h.2⟩
        cases l with
        | none => rfl
        | some x => simpa using hk x rfl
      · simp only [Memory.risingFrom, Bool.and_eq_true]
        refine ⟨h.1, ih h.2 ?_⟩
        intro x hx; cases hx; omega

theorem Memory.mem_insert {m : Memory} {k : Nat} {v : Byte} {c : Host.Cell} (h : c ∈ Memory.insert k v m) :
    c = (k, v) ∨ c ∈ m := by
  induction m with
  | nil => simpa [Memory.insert] using h
  | cons d m ih =>
    obtain ⟨a, b⟩ := d
    simp only [Memory.insert] at h
    split at h
    · simpa using h
    · split at h
      · rcases List.mem_cons.mp h with h | h
        · exact .inl h
        · exact .inr (List.mem_cons_of_mem _ h)
      · rcases List.mem_cons.mp h with h | h
        · exact .inr (h ▸ List.mem_cons_self)
        · rcases ih h with h | h
          · exact .inl h
          · exact .inr (List.mem_cons_of_mem _ h)

/-- Writing a byte keeps the canonical form. -/
theorem Memory.wf_set {m : Memory} (h : m.wf = true) (k : Nat) (v : Byte) : (m.set k v).wf = true := by
  simp only [Memory.wf, Bool.and_eq_true, List.all_eq_true] at h ⊢
  unfold Memory.set
  split
  · exact ⟨Memory.risingFrom_filter _ h.1, fun c hc => h.2 c (List.mem_filter.mp hc).1⟩
  · rename_i hv
    refine ⟨Memory.risingFrom_insert v h.1 (by simp), fun c hc => ?_⟩
    rcases Memory.mem_insert hc with rfl | hc
    · simpa using hv
    · exact h.2 c hc

/-- The empty memory has the canonical form. -/
theorem Memory.wf_nil : Memory.wf [] = true := rfl

/-- Memory with one more word has the canonical form. -/
theorem Memory.wf_setWord {m : Memory} (h : m.wf = true) (k : Nat) (v : Word) : (m.setWord k v).wf = true :=
  Memory.wf_set (Memory.wf_set h _ _) _ _

theorem mkWord_lo_hi (v : Word) : mkWord (loByte v) (hiByte v) = v := by
  unfold mkWord loByte hiByte; ext i hi; simp; grind

@[simp] theorem loByte_mkWord (a b : Byte) : loByte (mkWord a b) = a := by
  unfold mkWord loByte; exact BitVec.extractLsb'_append_eq_right

@[simp] theorem hiByte_mkWord (a b : Byte) : hiByte (mkWord a b) = b := by
  unfold mkWord hiByte; exact BitVec.extractLsb'_append_eq_left

/-- A word read back. -/
theorem Memory.getWord_set (m : Memory) (k : Nat) (v : Word) :
    ((m.set k (loByte v)).set (k + 1) (hiByte v)).getWord k = v := by
  have h := mkWord_lo_hi v
  unfold mkWord at h
  simpa [Memory.getWord, Memory.get_set] using h

theorem SfrFile.get_set (f : SfrFile) (r q : Sfr) (v : Word) :
    (f.set r v).get q = if q = r then v else f.get q := by
  have hq : q = r ↔ r.val / 32 = q.val / 32 ∧ r.val % 32 = q.val % 32 := by
    rw [Fin.ext_iff]; omega
  simp only [SfrFile.get, SfrFile.set, Vector.getElem_set]
  by_cases h : r.val / 32 = q.val / 32
  · simp only [h, if_true, Vector.getElem_set]
    by_cases h2 : r.val % 32 = q.val % 32
    · rw [if_pos h2, if_pos (hq.mpr ⟨h, h2⟩)]
    · rw [if_neg h2, if_neg (fun he => h2 (hq.mp he).2)]
  · have hn : ¬q = r := fun he => h (hq.mp he).1
    simp only [h, hn, if_false]

@[simp] theorem SfrFile.get_set_same (f : SfrFile) (r : Sfr) (v : Word) : (f.set r v).get r = v := by
  rw [SfrFile.get_set, if_pos rfl]

end Sys2Proof.Machine
end

