-- ==== Sys2Proof/Laws/Canonical.lean ====
section
/-! SUPPORT. Every operation on memory keeps its canonical form. -/
namespace Sys2Proof.Machine

/-- A byte stored by the program. -/
theorem storeCell_wf {s : State} (h : s.mem.wf = true) (k : Nat) (v : Byte) : (s.storeCell k v).mem.wf = true :=
  Memory.wf_set h k v

/-- A word stored by the program. -/
theorem storeWord_wf {s : State} (h : s.mem.wf = true) (k : Nat) (v : Word) : (s.storeWord k v).mem.wf = true :=
  storeCell_wf (storeCell_wf h _ _) _ _

/-- A byte stored by another agent. -/
theorem foreignStore_wf {s : State} (h : s.mem.wf = true) (k : Nat) (v : Byte) :
    (s.foreignStore k v).mem.wf = true :=
  Memory.wf_set h k v

/-- Cells that become free. -/
theorem freeCells_wf (base step n : Nat) {m : Memory} (h : m.wf = true) : (freeCells base step n m).wf = true := by
  induction n generalizing m with
  | zero => exact h
  | succ n ih => exact ih (Memory.wf_set h _ _)

/-- The bytes the bootstrap loader stores. -/
theorem storeBytes_wf (l : List Byte) (k : Nat) {m : Memory} (h : m.wf = true) : (storeBytes k l m).wf = true := by
  induction l generalizing k m with
  | nil => exact h
  | cons b l ih => exact ih _ (Memory.wf_set h _ _)

/-- Bytes put into cells. -/
theorem storeCells_wf (l : List (Nat × Byte)) {m : Memory} (h : m.wf = true) : (storeCells l m).wf = true := by
  unfold storeCells
  induction l generalizing m with
  | nil => exact h
  | cons c l ih => exact ih (Memory.wf_set h _ _)

/-- An aborted bus cycle. -/
theorem abortBus_wf {s : State} (h : s.mem.wf = true) (source : ResetSource) :
    (s.abortBus source).mem.wf = true := by
  unfold State.abortBus
  have hm : ∀ m : Memory, m.wf = true → ∀ c : Bool, (if c = true then storeCells s.bus.pending m else m).wf = true :=
    fun m hm c => by split <;> first | exact storeCells_wf _ hm | exact hm
  apply hm
  split
  · split <;> first | exact storeCells_wf _ h | exact h
  · exact h

/-- An event while the clocks stand still. -/
theorem eventAsleep_wf {s : State} (h : s.mem.wf = true) (e : EnvEvent) : (s.eventAsleep e).mem.wf = true := by
  cases e <;> first | exact h | exact foreignStore_wf h _ _

/-- The clocks of the reset sequence. -/
theorem resetPass_wf {s : State} (h : s.mem.wf = true) : s.resetPass.mem.wf = true := by
  have key : ∀ (l : List (Nat × EnvEvent)) (n : Nat) (t : State), t.mem.wf = true →
      (sleepEvents n l t).mem.wf = true := by
    intro l
    induction l with
    | nil => intro n t ht; exact ht
    | cons c l ih =>
      intro n t ht
      unfold sleepEvents
      split
      · exact ih _ _ (eventAsleep_wf ht _)
      · exact ht
  exact key _ _ _ h

/-- Memory after a reset. -/
theorem resetMem_wf {s : State} (h : s.mem.wf = true) (powerOn : Bool) : (s.resetMem powerOn).wf = true := by
  unfold State.resetMem
  split
  · exact freeCells_wf _ _ _ (freeCells_wf _ _ _ h)
  · exact h

/-- A placed instruction. -/
theorem placeCode_wf (l : List Byte) (ip : Word) {s : State} (h : s.mem.wf = true) :
    (s.placeCode ip l).mem.wf = true := by
  induction l generalizing ip s with
  | nil => exact h
  | cons b l ih =>
    unfold State.placeCode
    split
    · exact ih _ (Memory.wf_set h _ _)
    · exact ih _ h

/-- Memory at reset. -/
theorem reset_mem_wf : State.reset.mem.wf = true := rfl

end Sys2Proof.Machine
end

