-- ==== Sys2Proof/Laws/State.lean ====
section
/-! SUPPORT. What each update of the state does to each of its fields and to what is computed from them: one lemma per
field per update, so that no proof unfolds a record update. -/
namespace Sys2Proof.Machine

@[simp] theorem State.storeCell_core (s : State) (k : Nat) (v : Byte) : (s.storeCell k v).core = s.core := rfl
@[simp] theorem State.storeCell_sfr (s : State) (k : Nat) (v : Byte) : (s.storeCell k v).sfr = s.sfr := rfl
@[simp] theorem State.storeCell_mem (s : State) (k : Nat) (v : Byte) : (s.storeCell k v).mem = s.mem.set k v := rfl
@[simp] theorem State.storeCell_gpt (s : State) (k : Nat) (v : Byte) : (s.storeCell k v).gpt = s.gpt := rfl
@[simp] theorem State.storeCell_asc (s : State) (k : Nat) (v : Byte) : (s.storeCell k v).asc = s.asc := rfl
@[simp] theorem State.storeCell_ssc (s : State) (k : Nat) (v : Byte) : (s.storeCell k v).ssc = s.ssc := rfl
@[simp] theorem State.storeCell_capcom (s : State) (k : Nat) (v : Byte) : (s.storeCell k v).capcom = s.capcom := rfl
@[simp] theorem State.storeCell_pwm (s : State) (k : Nat) (v : Byte) : (s.storeCell k v).pwm = s.pwm := rfl
@[simp] theorem State.storeCell_adc (s : State) (k : Nat) (v : Byte) : (s.storeCell k v).adc = s.adc := rfl
@[simp] theorem State.storeCell_can (s : State) (k : Nat) (v : Byte) : (s.storeCell k v).can = s.can := rfl
@[simp] theorem State.storeCell_bus (s : State) (k : Nat) (v : Byte) : (s.storeCell k v).bus = s.bus := rfl
@[simp] theorem State.storeCell_clock (s : State) (k : Nat) (v : Byte) : (s.storeCell k v).clock = s.clock := rfl
@[simp] theorem State.storeCell_env (s : State) (k : Nat) (v : Byte) : (s.storeCell k v).env = s.env := rfl
@[simp] theorem State.storeCell_free (s : State) (k : Nat) (v : Byte) : (s.storeCell k v).free = s.free := rfl
@[simp] theorem State.storeCell_effCp (s : State) (k : Nat) (v : Byte) : (s.storeCell k v).effCp = s.effCp := rfl
@[simp] theorem State.storeCell_effDpp (s : State) (k : Nat) (v : Byte) (d : Fin 4) : (s.storeCell k v).effDpp d = s.effDpp d := rfl
@[simp] theorem State.storeCell_effSp (s : State) (k : Nat) (v : Byte) : (s.storeCell k v).effSp = s.effSp := rfl
@[simp] theorem State.storeCell_busMap (s : State) (k : Nat) (v : Byte) : (s.storeCell k v).busMap = s.busMap := rfl
@[simp] theorem State.storeCell_effMap (s : State) (k : Nat) (v : Byte) : (s.storeCell k v).effMap = s.effMap := rfl
@[simp] theorem State.storeCell_sgtdis (s : State) (k : Nat) (v : Byte) : (s.storeCell k v).sgtdis = s.sgtdis := rfl
@[simp] theorem State.storeCell_dataAddr (s : State) (k : Nat) (v : Byte) (z : Word) : (s.storeCell k v).dataAddr z = s.dataAddr z := rfl
@[simp] theorem State.storeCell_regNum (s : State) (k : Nat) (v : Byte) (q : Byte) : (s.storeCell k v).regNum q = s.regNum q := rfl
@[simp] theorem State.storeCell_bank (s : State) (k : Nat) (v : Byte) : (s.storeCell k v).bank = s.bank := rfl
@[simp] theorem State.storeCell_gprAt (s : State) (k : Nat) (v : Byte) (i : Gpr) : (s.storeCell k v).gprAt i = s.gprAt i := rfl
@[simp] theorem State.storeCell_gprBAt (s : State) (k : Nat) (v : Byte) (i : Gpr) : (s.storeCell k v).gprBAt i = s.gprBAt i := rfl
@[simp] theorem State.storeCell_even (s : State) (k : Nat) (v : Byte) (z : Word) : (s.storeCell k v).even z = s.even z := rfl
@[simp] theorem State.storeCell_stackAt (s : State) (k : Nat) (v : Byte) (p : Word) : (s.storeCell k v).stackAt p = s.stackAt p := rfl

@[simp] theorem State.storeWord_core (s : State) (k : Nat) (v : Word) : (s.storeWord k v).core = s.core := rfl
@[simp] theorem State.storeWord_sfr (s : State) (k : Nat) (v : Word) : (s.storeWord k v).sfr = s.sfr := rfl
@[simp] theorem State.storeWord_mem (s : State) (k : Nat) (v : Word) : (s.storeWord k v).mem = (s.mem.set k (loByte v)).set (k + 1) (hiByte v) := rfl
@[simp] theorem State.storeWord_gpt (s : State) (k : Nat) (v : Word) : (s.storeWord k v).gpt = s.gpt := rfl
@[simp] theorem State.storeWord_asc (s : State) (k : Nat) (v : Word) : (s.storeWord k v).asc = s.asc := rfl
@[simp] theorem State.storeWord_ssc (s : State) (k : Nat) (v : Word) : (s.storeWord k v).ssc = s.ssc := rfl
@[simp] theorem State.storeWord_capcom (s : State) (k : Nat) (v : Word) : (s.storeWord k v).capcom = s.capcom := rfl
@[simp] theorem State.storeWord_pwm (s : State) (k : Nat) (v : Word) : (s.storeWord k v).pwm = s.pwm := rfl
@[simp] theorem State.storeWord_adc (s : State) (k : Nat) (v : Word) : (s.storeWord k v).adc = s.adc := rfl
@[simp] theorem State.storeWord_can (s : State) (k : Nat) (v : Word) : (s.storeWord k v).can = s.can := rfl
@[simp] theorem State.storeWord_bus (s : State) (k : Nat) (v : Word) : (s.storeWord k v).bus = s.bus := rfl
@[simp] theorem State.storeWord_clock (s : State) (k : Nat) (v : Word) : (s.storeWord k v).clock = s.clock := rfl
@[simp] theorem State.storeWord_env (s : State) (k : Nat) (v : Word) : (s.storeWord k v).env = s.env := rfl
@[simp] theorem State.storeWord_free (s : State) (k : Nat) (v : Word) : (s.storeWord k v).free = s.free := rfl
@[simp] theorem State.storeWord_effCp (s : State) (k : Nat) (v : Word) : (s.storeWord k v).effCp = s.effCp := rfl
@[simp] theorem State.storeWord_effDpp (s : State) (k : Nat) (v : Word) (d : Fin 4) : (s.storeWord k v).effDpp d = s.effDpp d := rfl
@[simp] theorem State.storeWord_effSp (s : State) (k : Nat) (v : Word) : (s.storeWord k v).effSp = s.effSp := rfl
@[simp] theorem State.storeWord_busMap (s : State) (k : Nat) (v : Word) : (s.storeWord k v).busMap = s.busMap := rfl
@[simp] theorem State.storeWord_effMap (s : State) (k : Nat) (v : Word) : (s.storeWord k v).effMap = s.effMap := rfl
@[simp] theorem State.storeWord_sgtdis (s : State) (k : Nat) (v : Word) : (s.storeWord k v).sgtdis = s.sgtdis := rfl
@[simp] theorem State.storeWord_dataAddr (s : State) (k : Nat) (v : Word) (z : Word) : (s.storeWord k v).dataAddr z = s.dataAddr z := rfl
@[simp] theorem State.storeWord_regNum (s : State) (k : Nat) (v : Word) (q : Byte) : (s.storeWord k v).regNum q = s.regNum q := rfl
@[simp] theorem State.storeWord_bank (s : State) (k : Nat) (v : Word) : (s.storeWord k v).bank = s.bank := rfl
@[simp] theorem State.storeWord_gprAt (s : State) (k : Nat) (v : Word) (i : Gpr) : (s.storeWord k v).gprAt i = s.gprAt i := rfl
@[simp] theorem State.storeWord_gprBAt (s : State) (k : Nat) (v : Word) (i : Gpr) : (s.storeWord k v).gprBAt i = s.gprBAt i := rfl
@[simp] theorem State.storeWord_even (s : State) (k : Nat) (v : Word) (z : Word) : (s.storeWord k v).even z = s.even z := rfl
@[simp] theorem State.storeWord_stackAt (s : State) (k : Nat) (v : Word) (p : Word) : (s.storeWord k v).stackAt p = s.stackAt p := rfl

@[simp] theorem State.withFlags_core (s : State) (f : Flags) : (s.withFlags f).core = { s.core with psw := Sys2Proof.Machine.withFlags s.core.psw f } := rfl
@[simp] theorem State.withFlags_sys (s : State) (f : Flags) : (s.withFlags f).sys = s.sys := rfl
@[simp] theorem State.withFlags_sfr (s : State) (f : Flags) : (s.withFlags f).sfr = s.sfr := rfl
@[simp] theorem State.withFlags_mem (s : State) (f : Flags) : (s.withFlags f).mem = s.mem := rfl
@[simp] theorem State.withFlags_gpt (s : State) (f : Flags) : (s.withFlags f).gpt = s.gpt := rfl
@[simp] theorem State.withFlags_asc (s : State) (f : Flags) : (s.withFlags f).asc = s.asc := rfl
@[simp] theorem State.withFlags_ssc (s : State) (f : Flags) : (s.withFlags f).ssc = s.ssc := rfl
@[simp] theorem State.withFlags_capcom (s : State) (f : Flags) : (s.withFlags f).capcom = s.capcom := rfl
@[simp] theorem State.withFlags_pwm (s : State) (f : Flags) : (s.withFlags f).pwm = s.pwm := rfl
@[simp] theorem State.withFlags_adc (s : State) (f : Flags) : (s.withFlags f).adc = s.adc := rfl
@[simp] theorem State.withFlags_can (s : State) (f : Flags) : (s.withFlags f).can = s.can := rfl
@[simp] theorem State.withFlags_bus (s : State) (f : Flags) : (s.withFlags f).bus = s.bus := rfl
@[simp] theorem State.withFlags_clock (s : State) (f : Flags) : (s.withFlags f).clock = s.clock := rfl
@[simp] theorem State.withFlags_env (s : State) (f : Flags) : (s.withFlags f).env = s.env := rfl
@[simp] theorem State.withFlags_free (s : State) (f : Flags) : (s.withFlags f).free = s.free := rfl
@[simp] theorem State.withFlags_effCp (s : State) (f : Flags) : (s.withFlags f).effCp = s.effCp := rfl
@[simp] theorem State.withFlags_effDpp (s : State) (f : Flags) (d : Fin 4) : (s.withFlags f).effDpp d = s.effDpp d := rfl
@[simp] theorem State.withFlags_effSp (s : State) (f : Flags) : (s.withFlags f).effSp = s.effSp := rfl
@[simp] theorem State.withFlags_busMap (s : State) (f : Flags) : (s.withFlags f).busMap = s.busMap := rfl
@[simp] theorem State.withFlags_effMap (s : State) (f : Flags) : (s.withFlags f).effMap = s.effMap := rfl
@[simp] theorem State.withFlags_sgtdis (s : State) (f : Flags) : (s.withFlags f).sgtdis = s.sgtdis := rfl
@[simp] theorem State.withFlags_dataAddr (s : State) (f : Flags) (z : Word) : (s.withFlags f).dataAddr z = s.dataAddr z := rfl
@[simp] theorem State.withFlags_regNum (s : State) (f : Flags) (q : Byte) : (s.withFlags f).regNum q = s.regNum q := rfl
@[simp] theorem State.withFlags_bank (s : State) (f : Flags) : (s.withFlags f).bank = s.bank := rfl
@[simp] theorem State.withFlags_gprAt (s : State) (f : Flags) (i : Gpr) : (s.withFlags f).gprAt i = s.gprAt i := rfl
@[simp] theorem State.withFlags_gprBAt (s : State) (f : Flags) (i : Gpr) : (s.withFlags f).gprBAt i = s.gprBAt i := rfl
@[simp] theorem State.withFlags_even (s : State) (f : Flags) (z : Word) : (s.withFlags f).even z = s.even z := rfl
@[simp] theorem State.withFlags_stackAt (s : State) (f : Flags) (p : Word) : (s.withFlags f).stackAt p = s.stackAt p := rfl

@[simp] theorem State.setSp_core (s : State) (v : Word) : (s.setSp v).core = { s.core with sp := v } := rfl
@[simp] theorem State.setSp_sys (s : State) (v : Word) : (s.setSp v).sys = s.sys := rfl
@[simp] theorem State.setSp_sfr (s : State) (v : Word) : (s.setSp v).sfr = s.sfr := rfl
@[simp] theorem State.setSp_mem (s : State) (v : Word) : (s.setSp v).mem = s.mem := rfl
@[simp] theorem State.setSp_gpt (s : State) (v : Word) : (s.setSp v).gpt = s.gpt := rfl
@[simp] theorem State.setSp_asc (s : State) (v : Word) : (s.setSp v).asc = s.asc := rfl
@[simp] theorem State.setSp_ssc (s : State) (v : Word) : (s.setSp v).ssc = s.ssc := rfl
@[simp] theorem State.setSp_capcom (s : State) (v : Word) : (s.setSp v).capcom = s.capcom := rfl
@[simp] theorem State.setSp_pwm (s : State) (v : Word) : (s.setSp v).pwm = s.pwm := rfl
@[simp] theorem State.setSp_adc (s : State) (v : Word) : (s.setSp v).adc = s.adc := rfl
@[simp] theorem State.setSp_can (s : State) (v : Word) : (s.setSp v).can = s.can := rfl
@[simp] theorem State.setSp_bus (s : State) (v : Word) : (s.setSp v).bus = s.bus := rfl
@[simp] theorem State.setSp_clock (s : State) (v : Word) : (s.setSp v).clock = s.clock := rfl
@[simp] theorem State.setSp_env (s : State) (v : Word) : (s.setSp v).env = s.env := rfl
@[simp] theorem State.setSp_free (s : State) (v : Word) : (s.setSp v).free = s.free := rfl
@[simp] theorem State.setSp_effCp (s : State) (v : Word) : (s.setSp v).effCp = s.effCp := rfl
@[simp] theorem State.setSp_effDpp (s : State) (v : Word) (d : Fin 4) : (s.setSp v).effDpp d = s.effDpp d := rfl
@[simp] theorem State.setSp_busMap (s : State) (v : Word) : (s.setSp v).busMap = s.busMap := rfl
@[simp] theorem State.setSp_effMap (s : State) (v : Word) : (s.setSp v).effMap = s.effMap := rfl
@[simp] theorem State.setSp_sgtdis (s : State) (v : Word) : (s.setSp v).sgtdis = s.sgtdis := rfl
@[simp] theorem State.setSp_dataAddr (s : State) (v : Word) (z : Word) : (s.setSp v).dataAddr z = s.dataAddr z := rfl
@[simp] theorem State.setSp_regNum (s : State) (v : Word) (q : Byte) : (s.setSp v).regNum q = s.regNum q := rfl
@[simp] theorem State.setSp_bank (s : State) (v : Word) : (s.setSp v).bank = s.bank := rfl
@[simp] theorem State.setSp_gprAt (s : State) (v : Word) (i : Gpr) : (s.setSp v).gprAt i = s.gprAt i := rfl
@[simp] theorem State.setSp_gprBAt (s : State) (v : Word) (i : Gpr) : (s.setSp v).gprBAt i = s.gprBAt i := rfl
@[simp] theorem State.setSp_even (s : State) (v : Word) (z : Word) : (s.setSp v).even z = s.even z := rfl
@[simp] theorem State.setSp_stackAt (s : State) (v : Word) (p : Word) : (s.setSp v).stackAt p = s.stackAt p := rfl

@[simp] theorem State.setPsw_core (s : State) (v : Word) : (s.setPsw v).core = { s.core with psw := v } := rfl
@[simp] theorem State.setPsw_sfr (s : State) (v : Word) : (s.setPsw v).sfr = s.sfr := rfl
@[simp] theorem State.setPsw_mem (s : State) (v : Word) : (s.setPsw v).mem = s.mem := rfl
@[simp] theorem State.setPsw_gpt (s : State) (v : Word) : (s.setPsw v).gpt = s.gpt := rfl
@[simp] theorem State.setPsw_asc (s : State) (v : Word) : (s.setPsw v).asc = s.asc := rfl
@[simp] theorem State.setPsw_ssc (s : State) (v : Word) : (s.setPsw v).ssc = s.ssc := rfl
@[simp] theorem State.setPsw_capcom (s : State) (v : Word) : (s.setPsw v).capcom = s.capcom := rfl
@[simp] theorem State.setPsw_pwm (s : State) (v : Word) : (s.setPsw v).pwm = s.pwm := rfl
@[simp] theorem State.setPsw_adc (s : State) (v : Word) : (s.setPsw v).adc = s.adc := rfl
@[simp] theorem State.setPsw_can (s : State) (v : Word) : (s.setPsw v).can = s.can := rfl
@[simp] theorem State.setPsw_bus (s : State) (v : Word) : (s.setPsw v).bus = s.bus := rfl
@[simp] theorem State.setPsw_clock (s : State) (v : Word) : (s.setPsw v).clock = s.clock := rfl
@[simp] theorem State.setPsw_env (s : State) (v : Word) : (s.setPsw v).env = s.env := rfl
@[simp] theorem State.setPsw_free (s : State) (v : Word) : (s.setPsw v).free = s.free := rfl
@[simp] theorem State.setPsw_effCp (s : State) (v : Word) : (s.setPsw v).effCp = s.effCp := rfl
@[simp] theorem State.setPsw_effDpp (s : State) (v : Word) (d : Fin 4) : (s.setPsw v).effDpp d = s.effDpp d := rfl
@[simp] theorem State.setPsw_effSp (s : State) (v : Word) : (s.setPsw v).effSp = s.effSp := rfl
@[simp] theorem State.setPsw_busMap (s : State) (v : Word) : (s.setPsw v).busMap = s.busMap := rfl
@[simp] theorem State.setPsw_effMap (s : State) (v : Word) : (s.setPsw v).effMap = s.effMap := rfl
@[simp] theorem State.setPsw_sgtdis (s : State) (v : Word) : (s.setPsw v).sgtdis = s.sgtdis := rfl
@[simp] theorem State.setPsw_dataAddr (s : State) (v : Word) (z : Word) : (s.setPsw v).dataAddr z = s.dataAddr z := rfl
@[simp] theorem State.setPsw_regNum (s : State) (v : Word) (q : Byte) : (s.setPsw v).regNum q = s.regNum q := rfl
@[simp] theorem State.setPsw_bank (s : State) (v : Word) : (s.setPsw v).bank = s.bank := rfl
@[simp] theorem State.setPsw_gprAt (s : State) (v : Word) (i : Gpr) : (s.setPsw v).gprAt i = s.gprAt i := rfl
@[simp] theorem State.setPsw_gprBAt (s : State) (v : Word) (i : Gpr) : (s.setPsw v).gprBAt i = s.gprBAt i := rfl
@[simp] theorem State.setPsw_even (s : State) (v : Word) (z : Word) : (s.setPsw v).even z = s.even z := rfl
@[simp] theorem State.setPsw_stackAt (s : State) (v : Word) (p : Word) : (s.setPsw v).stackAt p = s.stackAt p := rfl

@[simp] theorem State.advance_core (s : State) (n : Nat) : (s.advance n).core = { s.core with ip := s.core.ip + BitVec.ofNat 16 n } := rfl
@[simp] theorem State.advance_sfr (s : State) (n : Nat) : (s.advance n).sfr = s.sfr := rfl
@[simp] theorem State.advance_mem (s : State) (n : Nat) : (s.advance n).mem = s.mem := rfl
@[simp] theorem State.advance_gpt (s : State) (n : Nat) : (s.advance n).gpt = s.gpt := rfl
@[simp] theorem State.advance_asc (s : State) (n : Nat) : (s.advance n).asc = s.asc := rfl
@[simp] theorem State.advance_ssc (s : State) (n : Nat) : (s.advance n).ssc = s.ssc := rfl
@[simp] theorem State.advance_capcom (s : State) (n : Nat) : (s.advance n).capcom = s.capcom := rfl
@[simp] theorem State.advance_pwm (s : State) (n : Nat) : (s.advance n).pwm = s.pwm := rfl
@[simp] theorem State.advance_adc (s : State) (n : Nat) : (s.advance n).adc = s.adc := rfl
@[simp] theorem State.advance_can (s : State) (n : Nat) : (s.advance n).can = s.can := rfl
@[simp] theorem State.advance_bus (s : State) (n : Nat) : (s.advance n).bus = s.bus := rfl
@[simp] theorem State.advance_clock (s : State) (n : Nat) : (s.advance n).clock = s.clock := rfl
@[simp] theorem State.advance_env (s : State) (n : Nat) : (s.advance n).env = s.env := rfl
@[simp] theorem State.advance_free (s : State) (n : Nat) : (s.advance n).free = s.free := rfl
@[simp] theorem State.advance_effCp (s : State) (n : Nat) : (s.advance n).effCp = s.effCp := rfl
@[simp] theorem State.advance_effDpp (s : State) (n : Nat) (d : Fin 4) : (s.advance n).effDpp d = s.effDpp d := rfl
@[simp] theorem State.advance_effSp (s : State) (n : Nat) : (s.advance n).effSp = s.effSp := rfl
@[simp] theorem State.advance_busMap (s : State) (n : Nat) : (s.advance n).busMap = s.busMap := rfl
@[simp] theorem State.advance_effMap (s : State) (n : Nat) : (s.advance n).effMap = s.effMap := rfl
@[simp] theorem State.advance_sgtdis (s : State) (n : Nat) : (s.advance n).sgtdis = s.sgtdis := rfl
@[simp] theorem State.advance_dataAddr (s : State) (n : Nat) (z : Word) : (s.advance n).dataAddr z = s.dataAddr z := rfl
@[simp] theorem State.advance_regNum (s : State) (n : Nat) (q : Byte) : (s.advance n).regNum q = s.regNum q := rfl
@[simp] theorem State.advance_bank (s : State) (n : Nat) : (s.advance n).bank = s.bank := rfl
@[simp] theorem State.advance_gprAt (s : State) (n : Nat) (i : Gpr) : (s.advance n).gprAt i = s.gprAt i := rfl
@[simp] theorem State.advance_gprBAt (s : State) (n : Nat) (i : Gpr) : (s.advance n).gprBAt i = s.gprBAt i := rfl
@[simp] theorem State.advance_even (s : State) (n : Nat) (z : Word) : (s.advance n).even z = s.even z := rfl
@[simp] theorem State.advance_stackAt (s : State) (n : Nat) (p : Word) : (s.advance n).stackAt p = s.stackAt p := rfl

@[simp] theorem State.setReg_core (s : State) (r : Sfr) (v : Word) : (s.setReg r v).core = s.core := rfl
@[simp] theorem State.setReg_sys (s : State) (r : Sfr) (v : Word) : (s.setReg r v).sys = s.sys := rfl
@[simp] theorem State.setReg_sfr (s : State) (r : Sfr) (v : Word) : (s.setReg r v).sfr = s.sfr.set r v := rfl
@[simp] theorem State.setReg_mem (s : State) (r : Sfr) (v : Word) : (s.setReg r v).mem = s.mem := rfl
@[simp] theorem State.setReg_gpt (s : State) (r : Sfr) (v : Word) : (s.setReg r v).gpt = s.gpt := rfl
@[simp] theorem State.setReg_asc (s : State) (r : Sfr) (v : Word) : (s.setReg r v).asc = s.asc := rfl
@[simp] theorem State.setReg_ssc (s : State) (r : Sfr) (v : Word) : (s.setReg r v).ssc = s.ssc := rfl
@[simp] theorem State.setReg_capcom (s : State) (r : Sfr) (v : Word) : (s.setReg r v).capcom = s.capcom := rfl
@[simp] theorem State.setReg_pwm (s : State) (r : Sfr) (v : Word) : (s.setReg r v).pwm = s.pwm := rfl
@[simp] theorem State.setReg_adc (s : State) (r : Sfr) (v : Word) : (s.setReg r v).adc = s.adc := rfl
@[simp] theorem State.setReg_can (s : State) (r : Sfr) (v : Word) : (s.setReg r v).can = s.can := rfl
@[simp] theorem State.setReg_bus (s : State) (r : Sfr) (v : Word) : (s.setReg r v).bus = s.bus := rfl
@[simp] theorem State.setReg_clock (s : State) (r : Sfr) (v : Word) : (s.setReg r v).clock = s.clock := rfl
@[simp] theorem State.setReg_env (s : State) (r : Sfr) (v : Word) : (s.setReg r v).env = s.env := rfl
@[simp] theorem State.setReg_free (s : State) (r : Sfr) (v : Word) : (s.setReg r v).free = s.free := rfl
@[simp] theorem State.setReg_effCp (s : State) (r : Sfr) (v : Word) : (s.setReg r v).effCp = s.effCp := rfl
@[simp] theorem State.setReg_effDpp (s : State) (r : Sfr) (v : Word) (d : Fin 4) : (s.setReg r v).effDpp d = s.effDpp d := rfl
@[simp] theorem State.setReg_effSp (s : State) (r : Sfr) (v : Word) : (s.setReg r v).effSp = s.effSp := rfl
@[simp] theorem State.setReg_regNum (s : State) (r : Sfr) (v : Word) (q : Byte) : (s.setReg r v).regNum q = s.regNum q := rfl
@[simp] theorem State.setReg_bank (s : State) (r : Sfr) (v : Word) : (s.setReg r v).bank = s.bank := rfl
@[simp] theorem State.setReg_gprAt (s : State) (r : Sfr) (v : Word) (i : Gpr) : (s.setReg r v).gprAt i = s.gprAt i := rfl
@[simp] theorem State.setReg_gprBAt (s : State) (r : Sfr) (v : Word) (i : Gpr) : (s.setReg r v).gprBAt i = s.gprBAt i := rfl

@[simp] theorem State.raise_core (s : State) (m : Word) : (s.raise m).core = { s.core with tfr := s.core.tfr ||| m } := rfl
@[simp] theorem State.raise_sys (s : State) (m : Word) : (s.raise m).sys = { s.sys with treq := s.sys.treq ||| (m &&& ~~~s.core.tfr) } := rfl
@[simp] theorem State.raise_sfr (s : State) (m : Word) : (s.raise m).sfr = s.sfr := rfl
@[simp] theorem State.raise_mem (s : State) (m : Word) : (s.raise m).mem = s.mem := rfl
@[simp] theorem State.raise_gpt (s : State) (m : Word) : (s.raise m).gpt = s.gpt := rfl
@[simp] theorem State.raise_asc (s : State) (m : Word) : (s.raise m).asc = s.asc := rfl
@[simp] theorem State.raise_ssc (s : State) (m : Word) : (s.raise m).ssc = s.ssc := rfl
@[simp] theorem State.raise_capcom (s : State) (m : Word) : (s.raise m).capcom = s.capcom := rfl
@[simp] theorem State.raise_pwm (s : State) (m : Word) : (s.raise m).pwm = s.pwm := rfl
@[simp] theorem State.raise_adc (s : State) (m : Word) : (s.raise m).adc = s.adc := rfl
@[simp] theorem State.raise_can (s : State) (m : Word) : (s.raise m).can = s.can := rfl
@[simp] theorem State.raise_bus (s : State) (m : Word) : (s.raise m).bus = s.bus := rfl
@[simp] theorem State.raise_clock (s : State) (m : Word) : (s.raise m).clock = s.clock := rfl
@[simp] theorem State.raise_env (s : State) (m : Word) : (s.raise m).env = s.env := rfl
@[simp] theorem State.raise_free (s : State) (m : Word) : (s.raise m).free = s.free := rfl
@[simp] theorem State.raise_effCp (s : State) (m : Word) : (s.raise m).effCp = s.effCp := rfl
@[simp] theorem State.raise_effDpp (s : State) (m : Word) (d : Fin 4) : (s.raise m).effDpp d = s.effDpp d := rfl
@[simp] theorem State.raise_effSp (s : State) (m : Word) : (s.raise m).effSp = s.effSp := rfl
@[simp] theorem State.raise_busMap (s : State) (m : Word) : (s.raise m).busMap = s.busMap := rfl
@[simp] theorem State.raise_effMap (s : State) (m : Word) : (s.raise m).effMap = s.effMap := rfl
@[simp] theorem State.raise_sgtdis (s : State) (m : Word) : (s.raise m).sgtdis = s.sgtdis := rfl
@[simp] theorem State.raise_dataAddr (s : State) (m : Word) (z : Word) : (s.raise m).dataAddr z = s.dataAddr z := rfl
@[simp] theorem State.raise_regNum (s : State) (m : Word) (q : Byte) : (s.raise m).regNum q = s.regNum q := rfl
@[simp] theorem State.raise_bank (s : State) (m : Word) : (s.raise m).bank = s.bank := rfl
@[simp] theorem State.raise_gprAt (s : State) (m : Word) (i : Gpr) : (s.raise m).gprAt i = s.gprAt i := rfl
@[simp] theorem State.raise_gprBAt (s : State) (m : Word) (i : Gpr) : (s.raise m).gprBAt i = s.gprBAt i := rfl
@[simp] theorem State.raise_even (s : State) (m : Word) (z : Word) : (s.raise m).even z = s.even z := rfl
@[simp] theorem State.raise_stackAt (s : State) (m : Word) (p : Word) : (s.raise m).stackAt p = s.stackAt p := rfl

@[simp] theorem State.emptyCache_core (s : State) : (s.emptyCache).core = s.core := rfl
@[simp] theorem State.emptyCache_sys (s : State) : (s.emptyCache).sys = { s.sys with jumpCache := none, cacheStored := [] } := rfl
@[simp] theorem State.emptyCache_sfr (s : State) : (s.emptyCache).sfr = s.sfr := rfl
@[simp] theorem State.emptyCache_mem (s : State) : (s.emptyCache).mem = s.mem := rfl
@[simp] theorem State.emptyCache_gpt (s : State) : (s.emptyCache).gpt = s.gpt := rfl
@[simp] theorem State.emptyCache_asc (s : State) : (s.emptyCache).asc = s.asc := rfl
@[simp] theorem State.emptyCache_ssc (s : State) : (s.emptyCache).ssc = s.ssc := rfl
@[simp] theorem State.emptyCache_capcom (s : State) : (s.emptyCache).capcom = s.capcom := rfl
@[simp] theorem State.emptyCache_pwm (s : State) : (s.emptyCache).pwm = s.pwm := rfl
@[simp] theorem State.emptyCache_adc (s : State) : (s.emptyCache).adc = s.adc := rfl
@[simp] theorem State.emptyCache_can (s : State) : (s.emptyCache).can = s.can := rfl
@[simp] theorem State.emptyCache_bus (s : State) : (s.emptyCache).bus = s.bus := rfl
@[simp] theorem State.emptyCache_clock (s : State) : (s.emptyCache).clock = s.clock := rfl
@[simp] theorem State.emptyCache_env (s : State) : (s.emptyCache).env = s.env := rfl
@[simp] theorem State.emptyCache_free (s : State) : (s.emptyCache).free = s.free := rfl
@[simp] theorem State.emptyCache_effCp (s : State) : (s.emptyCache).effCp = s.effCp := rfl
@[simp] theorem State.emptyCache_effDpp (s : State) (d : Fin 4) : (s.emptyCache).effDpp d = s.effDpp d := rfl
@[simp] theorem State.emptyCache_effSp (s : State) : (s.emptyCache).effSp = s.effSp := rfl
@[simp] theorem State.emptyCache_busMap (s : State) : (s.emptyCache).busMap = s.busMap := rfl
@[simp] theorem State.emptyCache_effMap (s : State) : (s.emptyCache).effMap = s.effMap := rfl
@[simp] theorem State.emptyCache_sgtdis (s : State) : (s.emptyCache).sgtdis = s.sgtdis := rfl
@[simp] theorem State.emptyCache_dataAddr (s : State) (z : Word) : (s.emptyCache).dataAddr z = s.dataAddr z := rfl
@[simp] theorem State.emptyCache_regNum (s : State) (q : Byte) : (s.emptyCache).regNum q = s.regNum q := rfl
@[simp] theorem State.emptyCache_bank (s : State) : (s.emptyCache).bank = s.bank := rfl
@[simp] theorem State.emptyCache_gprAt (s : State) (i : Gpr) : (s.emptyCache).gprAt i = s.gprAt i := rfl
@[simp] theorem State.emptyCache_gprBAt (s : State) (i : Gpr) : (s.emptyCache).gprBAt i = s.gprBAt i := rfl
@[simp] theorem State.emptyCache_even (s : State) (z : Word) : (s.emptyCache).even z = s.even z := rfl
@[simp] theorem State.emptyCache_stackAt (s : State) (p : Word) : (s.emptyCache).stackAt p = s.stackAt p := rfl

@[simp] theorem State.vectored_core (s : State) : s.vectored.core = s.core := rfl
@[simp] theorem State.vectored_sys (s : State) : s.vectored.sys =
    { s.sys with oldMaps := s.sys.oldMaps.map (MapChange.segment (wbit s.core.syscon 11)) } := rfl
@[simp] theorem State.vectored_sfr (s : State) : s.vectored.sfr = s.sfr := rfl
@[simp] theorem State.vectored_mem (s : State) : s.vectored.mem = s.mem := rfl
@[simp] theorem State.vectored_gpt (s : State) : s.vectored.gpt = s.gpt := rfl
@[simp] theorem State.vectored_asc (s : State) : s.vectored.asc = s.asc := rfl
@[simp] theorem State.vectored_ssc (s : State) : s.vectored.ssc = s.ssc := rfl
@[simp] theorem State.vectored_capcom (s : State) : s.vectored.capcom = s.capcom := rfl
@[simp] theorem State.vectored_pwm (s : State) : s.vectored.pwm = s.pwm := rfl
@[simp] theorem State.vectored_adc (s : State) : s.vectored.adc = s.adc := rfl
@[simp] theorem State.vectored_can (s : State) : s.vectored.can = s.can := rfl
@[simp] theorem State.vectored_bus (s : State) : s.vectored.bus = s.bus := rfl
@[simp] theorem State.vectored_clock (s : State) : s.vectored.clock = s.clock := rfl
@[simp] theorem State.vectored_env (s : State) : s.vectored.env = s.env := rfl
@[simp] theorem State.vectored_free (s : State) : s.vectored.free = s.free := rfl

@[simp] theorem State.noteFetch_core (s : State) (m : BusMap) (n : Nat) : (s.noteFetch m n).core = s.core := rfl
@[simp] theorem State.noteFetch_sys (s : State) (m : BusMap) (n : Nat) : (s.noteFetch m n).sys = s.sys := rfl
@[simp] theorem State.noteFetch_sfr (s : State) (m : BusMap) (n : Nat) : (s.noteFetch m n).sfr = s.sfr := rfl
@[simp] theorem State.noteFetch_mem (s : State) (m : BusMap) (n : Nat) : (s.noteFetch m n).mem = s.mem := rfl
@[simp] theorem State.noteFetch_gpt (s : State) (m : BusMap) (n : Nat) : (s.noteFetch m n).gpt = s.gpt := rfl
@[simp] theorem State.noteFetch_asc (s : State) (m : BusMap) (n : Nat) : (s.noteFetch m n).asc = s.asc := rfl
@[simp] theorem State.noteFetch_ssc (s : State) (m : BusMap) (n : Nat) : (s.noteFetch m n).ssc = s.ssc := rfl
@[simp] theorem State.noteFetch_capcom (s : State) (m : BusMap) (n : Nat) : (s.noteFetch m n).capcom = s.capcom := rfl
@[simp] theorem State.noteFetch_pwm (s : State) (m : BusMap) (n : Nat) : (s.noteFetch m n).pwm = s.pwm := rfl
@[simp] theorem State.noteFetch_adc (s : State) (m : BusMap) (n : Nat) : (s.noteFetch m n).adc = s.adc := rfl
@[simp] theorem State.noteFetch_can (s : State) (m : BusMap) (n : Nat) : (s.noteFetch m n).can = s.can := rfl
@[simp] theorem State.noteFetch_clock (s : State) (m : BusMap) (n : Nat) : (s.noteFetch m n).clock = s.clock := rfl
@[simp] theorem State.noteFetch_env (s : State) (m : BusMap) (n : Nat) : (s.noteFetch m n).env = s.env := rfl
@[simp] theorem State.noteFetch_free (s : State) (m : BusMap) (n : Nat) : (s.noteFetch m n).free = s.free := rfl

@[simp] theorem State.shown_core (s : State) (a : Addr) (c : Access) (k : Nat) : (s.shown a c k).core = s.core := rfl
@[simp] theorem State.shown_sys (s : State) (a : Addr) (c : Access) (k : Nat) : (s.shown a c k).sys = s.sys := rfl
@[simp] theorem State.shown_sfr (s : State) (a : Addr) (c : Access) (k : Nat) : (s.shown a c k).sfr = s.sfr := rfl
@[simp] theorem State.shown_mem (s : State) (a : Addr) (c : Access) (k : Nat) : (s.shown a c k).mem = s.mem := rfl
@[simp] theorem State.shown_gpt (s : State) (a : Addr) (c : Access) (k : Nat) : (s.shown a c k).gpt = s.gpt := rfl
@[simp] theorem State.shown_asc (s : State) (a : Addr) (c : Access) (k : Nat) : (s.shown a c k).asc = s.asc := rfl
@[simp] theorem State.shown_ssc (s : State) (a : Addr) (c : Access) (k : Nat) : (s.shown a c k).ssc = s.ssc := rfl
@[simp] theorem State.shown_capcom (s : State) (a : Addr) (c : Access) (k : Nat) : (s.shown a c k).capcom = s.capcom := rfl
@[simp] theorem State.shown_pwm (s : State) (a : Addr) (c : Access) (k : Nat) : (s.shown a c k).pwm = s.pwm := rfl
@[simp] theorem State.shown_adc (s : State) (a : Addr) (c : Access) (k : Nat) : (s.shown a c k).adc = s.adc := rfl
@[simp] theorem State.shown_can (s : State) (a : Addr) (c : Access) (k : Nat) : (s.shown a c k).can = s.can := rfl
@[simp] theorem State.shown_clock (s : State) (a : Addr) (c : Access) (k : Nat) : (s.shown a c k).clock = s.clock := rfl
@[simp] theorem State.shown_env (s : State) (a : Addr) (c : Access) (k : Nat) : (s.shown a c k).env = s.env := rfl
@[simp] theorem State.shown_free (s : State) (a : Addr) (c : Access) (k : Nat) : (s.shown a c k).free = s.free := rfl
@[simp] theorem State.shown_effCp (s : State) (a : Addr) (c : Access) (k : Nat) : (s.shown a c k).effCp = s.effCp := rfl
@[simp] theorem State.shown_effDpp (s : State) (a : Addr) (c : Access) (k : Nat) (d : Fin 4) : (s.shown a c k).effDpp d = s.effDpp d := rfl
@[simp] theorem State.shown_effSp (s : State) (a : Addr) (c : Access) (k : Nat) : (s.shown a c k).effSp = s.effSp := rfl
@[simp] theorem State.shown_busMap (s : State) (a : Addr) (c : Access) (k : Nat) : (s.shown a c k).busMap = s.busMap := rfl
@[simp] theorem State.shown_effMap (s : State) (a : Addr) (c : Access) (k : Nat) : (s.shown a c k).effMap = s.effMap := rfl
@[simp] theorem State.shown_sgtdis (s : State) (a : Addr) (c : Access) (k : Nat) : (s.shown a c k).sgtdis = s.sgtdis := rfl
@[simp] theorem State.shown_dataAddr (s : State) (a : Addr) (c : Access) (k : Nat) (z : Word) : (s.shown a c k).dataAddr z = s.dataAddr z := rfl
@[simp] theorem State.shown_regNum (s : State) (a : Addr) (c : Access) (k : Nat) (q : Byte) : (s.shown a c k).regNum q = s.regNum q := rfl
@[simp] theorem State.shown_bank (s : State) (a : Addr) (c : Access) (k : Nat) : (s.shown a c k).bank = s.bank := rfl
@[simp] theorem State.shown_gprAt (s : State) (a : Addr) (c : Access) (k : Nat) (i : Gpr) : (s.shown a c k).gprAt i = s.gprAt i := rfl
@[simp] theorem State.shown_gprBAt (s : State) (a : Addr) (c : Access) (k : Nat) (i : Gpr) : (s.shown a c k).gprBAt i = s.gprBAt i := rfl
@[simp] theorem State.shown_even (s : State) (a : Addr) (c : Access) (k : Nat) (z : Word) : (s.shown a c k).even z = s.even z := rfl
@[simp] theorem State.shown_stackAt (s : State) (a : Addr) (c : Access) (k : Nat) (p : Word) : (s.shown a c k).stackAt p = s.stackAt p := rfl

@[simp] theorem State.noteRmw_core (s : State) (r : Sfr) (m : Word) : (s.noteRmw r m).core = s.core := rfl
@[simp] theorem State.noteRmw_sys (s : State) (r : Sfr) (m : Word) : (s.noteRmw r m).sys = { s.sys with wrote := s.sys.wrote.map (fun w => if w.reg = r then { w with lost := m &&& r.mask } else w) } := rfl
@[simp] theorem State.noteRmw_sfr (s : State) (r : Sfr) (m : Word) : (s.noteRmw r m).sfr = s.sfr := rfl
@[simp] theorem State.noteRmw_mem (s : State) (r : Sfr) (m : Word) : (s.noteRmw r m).mem = s.mem := rfl
@[simp] theorem State.noteRmw_gpt (s : State) (r : Sfr) (m : Word) : (s.noteRmw r m).gpt = s.gpt := rfl
@[simp] theorem State.noteRmw_asc (s : State) (r : Sfr) (m : Word) : (s.noteRmw r m).asc = s.asc := rfl
@[simp] theorem State.noteRmw_ssc (s : State) (r : Sfr) (m : Word) : (s.noteRmw r m).ssc = s.ssc := rfl
@[simp] theorem State.noteRmw_capcom (s : State) (r : Sfr) (m : Word) : (s.noteRmw r m).capcom = s.capcom := rfl
@[simp] theorem State.noteRmw_pwm (s : State) (r : Sfr) (m : Word) : (s.noteRmw r m).pwm = s.pwm := rfl
@[simp] theorem State.noteRmw_adc (s : State) (r : Sfr) (m : Word) : (s.noteRmw r m).adc = s.adc := rfl
@[simp] theorem State.noteRmw_can (s : State) (r : Sfr) (m : Word) : (s.noteRmw r m).can = s.can := rfl
@[simp] theorem State.noteRmw_bus (s : State) (r : Sfr) (m : Word) : (s.noteRmw r m).bus = s.bus := rfl
@[simp] theorem State.noteRmw_clock (s : State) (r : Sfr) (m : Word) : (s.noteRmw r m).clock = s.clock := rfl
@[simp] theorem State.noteRmw_env (s : State) (r : Sfr) (m : Word) : (s.noteRmw r m).env = s.env := rfl
@[simp] theorem State.noteRmw_free (s : State) (r : Sfr) (m : Word) : (s.noteRmw r m).free = s.free := rfl
@[simp] theorem State.noteRmw_effCp (s : State) (r : Sfr) (m : Word) : (s.noteRmw r m).effCp = s.effCp := rfl
@[simp] theorem State.noteRmw_effDpp (s : State) (r : Sfr) (m : Word) (d : Fin 4) : (s.noteRmw r m).effDpp d = s.effDpp d := rfl
@[simp] theorem State.noteRmw_effSp (s : State) (r : Sfr) (m : Word) : (s.noteRmw r m).effSp = s.effSp := rfl
@[simp] theorem State.noteRmw_busMap (s : State) (r : Sfr) (m : Word) : (s.noteRmw r m).busMap = s.busMap := rfl
@[simp] theorem State.noteRmw_effMap (s : State) (r : Sfr) (m : Word) : (s.noteRmw r m).effMap = s.effMap := rfl
@[simp] theorem State.noteRmw_sgtdis (s : State) (r : Sfr) (m : Word) : (s.noteRmw r m).sgtdis = s.sgtdis := rfl
@[simp] theorem State.noteRmw_dataAddr (s : State) (r : Sfr) (m : Word) (z : Word) : (s.noteRmw r m).dataAddr z = s.dataAddr z := rfl
@[simp] theorem State.noteRmw_regNum (s : State) (r : Sfr) (m : Word) (q : Byte) : (s.noteRmw r m).regNum q = s.regNum q := rfl
@[simp] theorem State.noteRmw_bank (s : State) (r : Sfr) (m : Word) : (s.noteRmw r m).bank = s.bank := rfl
@[simp] theorem State.noteRmw_gprAt (s : State) (r : Sfr) (m : Word) (i : Gpr) : (s.noteRmw r m).gprAt i = s.gprAt i := rfl
@[simp] theorem State.noteRmw_gprBAt (s : State) (r : Sfr) (m : Word) (i : Gpr) : (s.noteRmw r m).gprBAt i = s.gprBAt i := rfl
@[simp] theorem State.noteRmw_even (s : State) (r : Sfr) (m : Word) (z : Word) : (s.noteRmw r m).even z = s.even z := rfl
@[simp] theorem State.noteRmw_stackAt (s : State) (r : Sfr) (m : Word) (p : Word) : (s.noteRmw r m).stackAt p = s.stackAt p := rfl

@[simp] theorem State.noteWrite_core (s : State) (u : State) (r : Sfr) (n : Word) : (u.noteWrite s r n).core = s.core := rfl
@[simp] theorem State.noteWrite_sfr (s : State) (u : State) (r : Sfr) (n : Word) : (u.noteWrite s r n).sfr = s.sfr := rfl
@[simp] theorem State.noteWrite_mem (s : State) (u : State) (r : Sfr) (n : Word) : (u.noteWrite s r n).mem = s.mem := rfl
@[simp] theorem State.noteWrite_gpt (s : State) (u : State) (r : Sfr) (n : Word) : (u.noteWrite s r n).gpt = s.gpt := rfl
@[simp] theorem State.noteWrite_asc (s : State) (u : State) (r : Sfr) (n : Word) : (u.noteWrite s r n).asc = s.asc := rfl
@[simp] theorem State.noteWrite_ssc (s : State) (u : State) (r : Sfr) (n : Word) : (u.noteWrite s r n).ssc = s.ssc := rfl
@[simp] theorem State.noteWrite_capcom (s : State) (u : State) (r : Sfr) (n : Word) : (u.noteWrite s r n).capcom = s.capcom := rfl
@[simp] theorem State.noteWrite_pwm (s : State) (u : State) (r : Sfr) (n : Word) : (u.noteWrite s r n).pwm = s.pwm := rfl
@[simp] theorem State.noteWrite_adc (s : State) (u : State) (r : Sfr) (n : Word) : (u.noteWrite s r n).adc = s.adc := rfl
@[simp] theorem State.noteWrite_can (s : State) (u : State) (r : Sfr) (n : Word) : (u.noteWrite s r n).can = s.can := rfl
@[simp] theorem State.noteWrite_bus (s : State) (u : State) (r : Sfr) (n : Word) : (u.noteWrite s r n).bus = s.bus := rfl
@[simp] theorem State.noteWrite_clock (s : State) (u : State) (r : Sfr) (n : Word) : (u.noteWrite s r n).clock = s.clock := rfl
@[simp] theorem State.noteWrite_env (s : State) (u : State) (r : Sfr) (n : Word) : (u.noteWrite s r n).env = s.env := rfl
@[simp] theorem State.noteWrite_free (s : State) (u : State) (r : Sfr) (n : Word) : (u.noteWrite s r n).free = s.free := rfl
@[simp] theorem State.noteWrite_effCp (s : State) (u : State) (r : Sfr) (n : Word) : (u.noteWrite s r n).effCp = s.effCp := rfl
@[simp] theorem State.noteWrite_effDpp (s : State) (u : State) (r : Sfr) (n : Word) (d : Fin 4) : (u.noteWrite s r n).effDpp d = s.effDpp d := rfl
@[simp] theorem State.noteWrite_effSp (s : State) (u : State) (r : Sfr) (n : Word) : (u.noteWrite s r n).effSp = s.effSp := rfl
@[simp] theorem State.noteWrite_busMap (s : State) (u : State) (r : Sfr) (n : Word) : (u.noteWrite s r n).busMap = s.busMap := rfl
@[simp] theorem State.noteWrite_effMap (s : State) (u : State) (r : Sfr) (n : Word) : (u.noteWrite s r n).effMap = s.effMap := rfl
@[simp] theorem State.noteWrite_sgtdis (s : State) (u : State) (r : Sfr) (n : Word) : (u.noteWrite s r n).sgtdis = s.sgtdis := rfl
@[simp] theorem State.noteWrite_dataAddr (s : State) (u : State) (r : Sfr) (n : Word) (z : Word) : (u.noteWrite s r n).dataAddr z = s.dataAddr z := rfl
@[simp] theorem State.noteWrite_regNum (s : State) (u : State) (r : Sfr) (n : Word) (q : Byte) : (u.noteWrite s r n).regNum q = s.regNum q := rfl
@[simp] theorem State.noteWrite_bank (s : State) (u : State) (r : Sfr) (n : Word) : (u.noteWrite s r n).bank = s.bank := rfl
@[simp] theorem State.noteWrite_gprAt (s : State) (u : State) (r : Sfr) (n : Word) (i : Gpr) : (u.noteWrite s r n).gprAt i = s.gprAt i := rfl
@[simp] theorem State.noteWrite_gprBAt (s : State) (u : State) (r : Sfr) (n : Word) (i : Gpr) : (u.noteWrite s r n).gprBAt i = s.gprBAt i := rfl
@[simp] theorem State.noteWrite_even (s : State) (u : State) (r : Sfr) (n : Word) (z : Word) : (u.noteWrite s r n).even z = s.even z := rfl
@[simp] theorem State.noteWrite_stackAt (s : State) (u : State) (r : Sfr) (n : Word) (p : Word) : (u.noteWrite s r n).stackAt p = s.stackAt p := rfl

@[simp] theorem State.reached_core (s : State) (ip : Word) : (s.reached ip).core = s.core := rfl
@[simp] theorem State.reached_sfr (s : State) (ip : Word) : (s.reached ip).sfr = s.sfr := rfl
@[simp] theorem State.reached_mem (s : State) (ip : Word) : (s.reached ip).mem = s.mem := rfl
@[simp] theorem State.reached_gpt (s : State) (ip : Word) : (s.reached ip).gpt = s.gpt := rfl
@[simp] theorem State.reached_asc (s : State) (ip : Word) : (s.reached ip).asc = s.asc := rfl
@[simp] theorem State.reached_ssc (s : State) (ip : Word) : (s.reached ip).ssc = s.ssc := rfl
@[simp] theorem State.reached_capcom (s : State) (ip : Word) : (s.reached ip).capcom = s.capcom := rfl
@[simp] theorem State.reached_pwm (s : State) (ip : Word) : (s.reached ip).pwm = s.pwm := rfl
@[simp] theorem State.reached_adc (s : State) (ip : Word) : (s.reached ip).adc = s.adc := rfl
@[simp] theorem State.reached_can (s : State) (ip : Word) : (s.reached ip).can = s.can := rfl
@[simp] theorem State.reached_bus (s : State) (ip : Word) : (s.reached ip).bus = s.bus := rfl
@[simp] theorem State.reached_clock (s : State) (ip : Word) : (s.reached ip).clock = s.clock := rfl
@[simp] theorem State.reached_env (s : State) (ip : Word) : (s.reached ip).env = s.env := rfl
@[simp] theorem State.reached_free (s : State) (ip : Word) : (s.reached ip).free = s.free := rfl
@[simp] theorem State.reached_effCp (s : State) (ip : Word) : (s.reached ip).effCp = s.effCp := rfl
@[simp] theorem State.reached_effDpp (s : State) (ip : Word) (d : Fin 4) : (s.reached ip).effDpp d = s.effDpp d := rfl
@[simp] theorem State.reached_effSp (s : State) (ip : Word) : (s.reached ip).effSp = s.effSp := rfl
@[simp] theorem State.reached_busMap (s : State) (ip : Word) : (s.reached ip).busMap = s.busMap := rfl
@[simp] theorem State.reached_effMap (s : State) (ip : Word) : (s.reached ip).effMap = s.effMap := rfl
@[simp] theorem State.reached_sgtdis (s : State) (ip : Word) : (s.reached ip).sgtdis = s.sgtdis := rfl
@[simp] theorem State.reached_dataAddr (s : State) (ip : Word) (z : Word) : (s.reached ip).dataAddr z = s.dataAddr z := rfl
@[simp] theorem State.reached_regNum (s : State) (ip : Word) (q : Byte) : (s.reached ip).regNum q = s.regNum q := rfl
@[simp] theorem State.reached_bank (s : State) (ip : Word) : (s.reached ip).bank = s.bank := rfl
@[simp] theorem State.reached_gprAt (s : State) (ip : Word) (i : Gpr) : (s.reached ip).gprAt i = s.gprAt i := rfl
@[simp] theorem State.reached_gprBAt (s : State) (ip : Word) (i : Gpr) : (s.reached ip).gprBAt i = s.gprBAt i := rfl
@[simp] theorem State.reached_even (s : State) (ip : Word) (z : Word) : (s.reached ip).even z = s.even z := rfl
@[simp] theorem State.reached_stackAt (s : State) (ip : Word) (p : Word) : (s.reached ip).stackAt p = s.stackAt p := rfl

@[simp] theorem State.holdResume_core (s : State) : s.holdResume.core = s.core := rfl
@[simp] theorem State.holdResume_sys (s : State) : s.holdResume.sys = { s.sys with resume := false, suspended := s.heldFrames } := rfl
@[simp] theorem State.holdResume_sfr (s : State) : s.holdResume.sfr = s.sfr := rfl
@[simp] theorem State.holdResume_mem (s : State) : s.holdResume.mem = s.mem := rfl
@[simp] theorem State.holdResume_gpt (s : State) : s.holdResume.gpt = s.gpt := rfl
@[simp] theorem State.holdResume_asc (s : State) : s.holdResume.asc = s.asc := rfl
@[simp] theorem State.holdResume_ssc (s : State) : s.holdResume.ssc = s.ssc := rfl
@[simp] theorem State.holdResume_capcom (s : State) : s.holdResume.capcom = s.capcom := rfl
@[simp] theorem State.holdResume_pwm (s : State) : s.holdResume.pwm = s.pwm := rfl
@[simp] theorem State.holdResume_adc (s : State) : s.holdResume.adc = s.adc := rfl
@[simp] theorem State.holdResume_can (s : State) : s.holdResume.can = s.can := rfl
@[simp] theorem State.holdResume_bus (s : State) : s.holdResume.bus = s.bus := rfl
@[simp] theorem State.holdResume_clock (s : State) : s.holdResume.clock = s.clock := rfl
@[simp] theorem State.holdResume_env (s : State) : s.holdResume.env = s.env := rfl
@[simp] theorem State.holdResume_free (s : State) : s.holdResume.free = s.free := rfl
@[simp] theorem State.holdResume_effCp (s : State) : s.holdResume.effCp = s.effCp := rfl
@[simp] theorem State.holdResume_effDpp (s : State) (d : Fin 4) : s.holdResume.effDpp d = s.effDpp d := rfl
@[simp] theorem State.holdResume_effSp (s : State) : s.holdResume.effSp = s.effSp := rfl
@[simp] theorem State.holdResume_busMap (s : State) : s.holdResume.busMap = s.busMap := rfl
@[simp] theorem State.holdResume_effMap (s : State) : s.holdResume.effMap = s.effMap := rfl
@[simp] theorem State.holdResume_sgtdis (s : State) : s.holdResume.sgtdis = s.sgtdis := rfl
@[simp] theorem State.holdResume_dataAddr (s : State) (z : Word) : s.holdResume.dataAddr z = s.dataAddr z := rfl
@[simp] theorem State.holdResume_regNum (s : State) (q : Byte) : s.holdResume.regNum q = s.regNum q := rfl
@[simp] theorem State.holdResume_bank (s : State) : s.holdResume.bank = s.bank := rfl
@[simp] theorem State.holdResume_gprAt (s : State) (i : Gpr) : s.holdResume.gprAt i = s.gprAt i := rfl
@[simp] theorem State.holdResume_gprBAt (s : State) (i : Gpr) : s.holdResume.gprBAt i = s.gprBAt i := rfl
@[simp] theorem State.holdResume_even (s : State) (z : Word) : s.holdResume.even z = s.even z := rfl
@[simp] theorem State.holdResume_stackAt (s : State) (p : Word) : s.holdResume.stackAt p = s.stackAt p := rfl

@[simp] theorem State.waits_core (s : State) (w : List (Nat × Byte)) : (s.waits w).core = s.core := rfl
@[simp] theorem State.waits_sys (s : State) (w : List (Nat × Byte)) : (s.waits w).sys = { s.sys with waiting := true } := rfl
@[simp] theorem State.waits_sfr (s : State) (w : List (Nat × Byte)) : (s.waits w).sfr = s.sfr := rfl
@[simp] theorem State.waits_mem (s : State) (w : List (Nat × Byte)) : (s.waits w).mem = s.mem := rfl
@[simp] theorem State.waits_gpt (s : State) (w : List (Nat × Byte)) : (s.waits w).gpt = s.gpt := rfl
@[simp] theorem State.waits_asc (s : State) (w : List (Nat × Byte)) : (s.waits w).asc = s.asc := rfl
@[simp] theorem State.waits_ssc (s : State) (w : List (Nat × Byte)) : (s.waits w).ssc = s.ssc := rfl
@[simp] theorem State.waits_capcom (s : State) (w : List (Nat × Byte)) : (s.waits w).capcom = s.capcom := rfl
@[simp] theorem State.waits_pwm (s : State) (w : List (Nat × Byte)) : (s.waits w).pwm = s.pwm := rfl
@[simp] theorem State.waits_adc (s : State) (w : List (Nat × Byte)) : (s.waits w).adc = s.adc := rfl
@[simp] theorem State.waits_can (s : State) (w : List (Nat × Byte)) : (s.waits w).can = s.can := rfl
@[simp] theorem State.waits_bus (s : State) (w : List (Nat × Byte)) : (s.waits w).bus = { s.bus with pending := w } := rfl
@[simp] theorem State.waits_clock (s : State) (w : List (Nat × Byte)) : (s.waits w).clock = s.clock := rfl
@[simp] theorem State.waits_env (s : State) (w : List (Nat × Byte)) : (s.waits w).env = s.env := rfl
@[simp] theorem State.waits_free (s : State) (w : List (Nat × Byte)) : (s.waits w).free = s.free := rfl
@[simp] theorem State.waits_effCp (s : State) (w : List (Nat × Byte)) : (s.waits w).effCp = s.effCp := rfl
@[simp] theorem State.waits_effDpp (s : State) (w : List (Nat × Byte)) (d : Fin 4) : (s.waits w).effDpp d = s.effDpp d := rfl
@[simp] theorem State.waits_effSp (s : State) (w : List (Nat × Byte)) : (s.waits w).effSp = s.effSp := rfl
@[simp] theorem State.waits_busMap (s : State) (w : List (Nat × Byte)) : (s.waits w).busMap = s.busMap := rfl
@[simp] theorem State.waits_effMap (s : State) (w : List (Nat × Byte)) : (s.waits w).effMap = s.effMap := rfl
@[simp] theorem State.waits_sgtdis (s : State) (w : List (Nat × Byte)) : (s.waits w).sgtdis = s.sgtdis := rfl
@[simp] theorem State.waits_dataAddr (s : State) (w : List (Nat × Byte)) (z : Word) : (s.waits w).dataAddr z = s.dataAddr z := rfl
@[simp] theorem State.waits_regNum (s : State) (w : List (Nat × Byte)) (q : Byte) : (s.waits w).regNum q = s.regNum q := rfl
@[simp] theorem State.waits_bank (s : State) (w : List (Nat × Byte)) : (s.waits w).bank = s.bank := rfl
@[simp] theorem State.waits_gprAt (s : State) (w : List (Nat × Byte)) (i : Gpr) : (s.waits w).gprAt i = s.gprAt i := rfl
@[simp] theorem State.waits_gprBAt (s : State) (w : List (Nat × Byte)) (i : Gpr) : (s.waits w).gprBAt i = s.gprBAt i := rfl
@[simp] theorem State.waits_even (s : State) (w : List (Nat × Byte)) (z : Word) : (s.waits w).even z = s.even z := rfl
@[simp] theorem State.waits_stackAt (s : State) (w : List (Nat × Byte)) (p : Word) : (s.waits w).stackAt p = s.stackAt p := rfl

theorem State.branch_eq (s : State) (ip : Word) :
    s.branch ip =
      (let t := { s with
        core := { s.core with ip := ip }, sys := { s.sys with crossed := false, stored := [], flushed := true } };
      if wbit ip 0 then t.raise tfrIllina else t) := rfl

/-- A branch to an even address. -/
theorem State.branch_even (s : State) {ip : Word} (h : wbit ip 0 = false) :
    s.branch ip =
      { s with
        core := { s.core with ip := ip }, sys := { s.sys with crossed := false, stored := [], flushed := true } } := by
  rw [State.branch_eq]; simp [h]

@[simp] theorem State.branch_ip (s : State) (ip : Word) : (s.branch ip).core.ip = ip := by
  rw [State.branch_eq]; dsimp only; split <;> rfl

@[simp] theorem State.branch_mem (s : State) (ip : Word) : (s.branch ip).mem = s.mem := by
  rw [State.branch_eq]; dsimp only; split <;> rfl

/-- The word a store leaves in its cells. -/
@[simp] theorem State.storeWord_getWord (s : State) (k : Nat) (v : Word) : (s.storeWord k v).mem.getWord k = v := by
  rw [State.storeWord_mem]; exact Memory.getWord_set s.mem k v

/-- A byte outside the stored word. -/
theorem State.storeWord_get_other (s : State) {k j : Nat} (v : Word) (h : j ∉ wordCells k) :
    (s.storeWord k v).mem.get j = s.mem.get j := by
  simp only [wordCells, List.mem_cons, List.not_mem_nil, or_false, not_or] at h
  rw [State.storeWord_mem, Memory.get_set_other _ _ h.2, Memory.get_set_other _ _ h.1]

/-! ## `blank` does not see what it leaves out -/

@[simp] theorem State.blank_storeCell (s : State) (k : Nat) (v : Byte) : (s.storeCell k v).blank = s.blank := rfl

@[simp] theorem State.blank_storeWord (s : State) (k : Nat) (v : Word) : (s.storeWord k v).blank = s.blank := rfl

@[simp] theorem State.blank_shown (s : State) (a : Addr) (c : Access) (k : Nat) : (s.shown a c k).blank = s.blank := rfl

@[simp] theorem State.blank_advance (s : State) (n : Nat) : (s.advance n).blank = s.blank := rfl

theorem Flags.word_low (f : Flags) : f.word &&& 0xFFE0 = 0 := by
  rcases f with ⟨e, z, v, c, n⟩
  cases e <;> cases z <;> cases v <;> cases c <;> cases n <;> decide

theorem withFlags_high (psw : Word) (f : Flags) : withFlags psw f &&& 0xFFE0 = psw &&& 0xFFE0 := by
  unfold withFlags
  rw [BitVec.and_or_distrib_right, Flags.word_low, BitVec.and_assoc]; exact BitVec.or_zero

@[simp] theorem State.blank_withFlags (s : State) (f : Flags) : (s.withFlags f).blank = s.blank := by
  simp only [State.blank, State.withFlags, withFlags_high]

@[simp] theorem flagsOf_withFlags (psw : Word) (f : Flags) : flagsOf (withFlags psw f) = f := by
  rcases f with ⟨e, z, v, c, n⟩
  have h : ∀ i < 5, wbit (psw &&& 0xFFE0) i = false := by
    intro i hi
    have : i = 0 ∨ i = 1 ∨ i = 2 ∨ i = 3 ∨ i = 4 := by omega
    rcases this with rfl | rfl | rfl | rfl | rfl <;> simp [wbit]
  have hw : ∀ (a b : Word) (i : Nat), wbit (a ||| b) i = (wbit a i || wbit b i) := by intro a b i; simp [wbit]
  simp only [flagsOf, withFlags, hw, h _ (by omega : (4 : Nat) < 5), h _ (by omega : (3 : Nat) < 5),
    h _ (by omega : (2 : Nat) < 5), h _ (by omega : (1 : Nat) < 5), h _ (by omega : (0 : Nat) < 5), Bool.false_or]
  cases e <;> cases z <;> cases v <;> cases c <;> cases n <;> decide

/-- An instruction that stored a word, set flags and advanced. -/
theorem wordWritten_store (s : State) (k : Nat) (r : Word) (f : Flags) (len : Nat) :
    WordWritten s (((s.withFlags f).storeWord k r).advance len) k r f len := by
  refine ⟨State.storeWord_getWord (s.withFlags f) k r, by simp, by simp, by simp, fun j hj => ?_⟩
  simpa using State.storeWord_get_other (s.withFlags f) r hj

/-- An instruction that stored a byte, set flags and advanced. -/
theorem byteWritten_store (s : State) (k : Nat) (r : Byte) (f : Flags) (len : Nat) :
    ByteWritten s (((s.withFlags f).storeCell k r).advance len) k r f len := by
  refine ⟨by simp, by simp, by simp, by simp, ?_⟩
  intro j hj
  simpa using Memory.get_set_other s.mem r (by simpa using hj)

/-- The same for a word stored through a data address. -/
theorem wordWritten_shown (s : State) (a : Addr) (c : Access) (k : Nat) (r : Word) (f : Flags) (len : Nat) :
    WordWritten s ((((s.withFlags f).shown a c k).storeWord k r).advance len) k r f len := by
  refine ⟨State.storeWord_getWord _ k r, by simp, by simp, by simp, fun j hj => ?_⟩
  simpa using State.storeWord_get_other ((s.withFlags f).shown a c k) r hj

/-- The same for a byte. -/
theorem byteWritten_shown (s : State) (a : Addr) (c : Access) (k : Nat) (r : Byte) (f : Flags) (len : Nat) :
    ByteWritten s ((((s.withFlags f).shown a c k).storeCell k r).advance len) k r f len := by
  refine ⟨by simp, by simp, by simp, by simp, ?_⟩
  intro j hj
  simpa using Memory.get_set_other s.mem r (by simpa using hj)

/-- An instruction that set flags and advanced. -/
theorem flagsWritten_advance (s : State) (f : Flags) (len : Nat) :
    FlagsWritten s ((s.withFlags f).advance len) f len := by
  exact ⟨by simp, by simp, by simp, by simp⟩

end Sys2Proof.Machine
end

