-- ==== Sys2Proof/Laws/Ops.lean ====
section
/-! SUPPORT. What each shared operation does, once: its result and the state it leaves, under the condition that it
does not stop. -/
namespace Sys2Proof.Machine

/-! ## General purpose registers -/

theorem bank_bounds {s : State} (h : s.bank = true) :
    0xF600 ≤ s.effCp.toNat ∧ s.effCp.toNat + 32 ≤ 0xFE00 := by simpa [State.bank] using h

theorem gprCell_run {s : State} {off w : Nat} (h : s.bank = true) (ho : off + w ≤ 32) :
    gprCell off w s = .ok (iramCell (s.effCp.toNat + off), s) := by
  have hb := bank_bounds h
  unfold gprCell
  rw [Act.look_bind, Act.ite_run, if_pos (by omega)]
  rfl

theorem gprCell_refused {s : State} {off w : Nat}
    (h : ¬(0xF600 ≤ s.effCp.toNat + off ∧ s.effCp.toNat + off + w ≤ 0xFE00)) :
    gprCell off w s = .error (.refused .gprOutsideIram) := by
  unfold gprCell
  rw [Act.look_bind, Act.ite_run, if_neg h]
  rfl

theorem gpr_bound (n : Gpr) : 2 * n.toNat + 2 ≤ 32 := by have := n.isLt; omega

theorem gprB_bound (n : Gpr) : n.toNat + 1 ≤ 32 := by have := n.isLt; omega

theorem readGpr_run {s : State} (n : Gpr) (h : s.bank = true) : readGpr n s = .ok (s.gpr n, s) := by
  unfold readGpr; rw [Act.bind_ok (gprCell_run h (gpr_bound n))]; rfl

theorem writeGpr_run {s : State} (n : Gpr) (v : Word) (h : s.bank = true) :
    writeGpr n v s = .ok ((), s.storeWord (s.gprAt n) v) := by
  unfold writeGpr; rw [Act.bind_ok (gprCell_run h (gpr_bound n))]; rfl

theorem readGprB_run {s : State} (n : Gpr) (h : s.bank = true) : readGprB n s = .ok (s.gprB n, s) := by
  unfold readGprB; rw [Act.bind_ok (gprCell_run h (gprB_bound n))]; rfl

theorem writeGprB_run {s : State} (n : Gpr) (v : Byte) (h : s.bank = true) :
    writeGprB n v s = .ok ((), s.storeCell (s.gprBAt n) v) := by
  unfold writeGprB; rw [Act.bind_ok (gprCell_run h (gprB_bound n))]; rfl

/-! ## Special function registers -/

theorem present_low {r : Sfr} (h : r.present = true) : ¬r.val < 16 := by
  simp only [Sfr.present, Bool.and_eq_true, decide_eq_true_eq] at h; omega

theorem present_row {r : Sfr} (h : r.present = true) : r.row?.isNone = false := by
  simp only [Sfr.present, Bool.and_eq_true] at h
  cases hr : r.row? with
  | none => rw [hr] at h; simp at h
  | some x => rfl

theorem checkSfr_run {s : State} {r : Sfr} (h : r.present = true) : checkSfr r s = .ok ((), s) := by
  simp [checkSfr, present_low h, present_row h]

theorem readSfr_run {s : State} {r : Sfr} (h : r.present = true) :
    readSfr r s = .ok (s.sfrValue r, s.afterSfrRead r) := by
  unfold readSfr; rw [Act.bind_ok (checkSfr_run h), Act.look_bind, Act.change_bind]; rfl

theorem writeSfrBits_run {s : State} {r : Sfr} {v named : Word} (h : r.present = true)
    (hr : s.sfrRefusal r = none) : writeSfrBits r v named s = .ok ((), s.storeSfr r v named) := by
  unfold writeSfrBits; rw [Act.bind_ok (checkSfr_run h)]; simp [hr]

theorem writeSfr_run {s : State} {r : Sfr} {v : Word} (h : r.present = true) (hr : s.sfrRefusal r = none) :
    writeSfr r v s = .ok ((), s.storeSfr r v 0xFFFF) := writeSfrBits_run h hr

/-! ## Memory operands -/

/-- An area of plain memory, and its cell. -/
theorem cellOf_run {s : State} {p : Addr} {k : Nat} (c : Access) (h : s.cellAt c.writes p = some k) :
    cellOf p (s.areaAt p) c s = .ok (some k, s.shown p c k) := by
  unfold State.shown
  unfold State.cellAt at h
  cases ha : s.areaAt p <;> rw [ha] at h <;> dsimp only at h <;>
    first
      | (cases h; done)
      | (cases h; rfl)
      | (split at h
         · cases h
         · rename_i hb
           cases h
           unfold cellOf
           simp only [Act.look_bind, hb]
           rfl)

/-- The area is neither a register nor the CAN module, and some bus answers. -/
theorem cellAt_area {s : State} {p : Addr} {k : Nat} {wr : Bool} (h : s.cellAt wr p = some k) :
    (∀ r, s.areaAt p ≠ .sfr r) ∧ (∀ c, s.areaAt p ≠ .can c) ∧ s.areaAt p ≠ .noBus := by
  unfold State.cellAt at h
  refine ⟨fun r hr => ?_, fun r hr => ?_, fun hr => ?_⟩ <;> rw [hr] at h <;> cases h

theorem readWord_run {s : State} {p : Addr} {k : Nat} (h : s.cellAt false p = some k) (he : ¬p.toNat % 2 = 1) :
    readWord p s = .ok (s.mem.getWord k, s.shown p (.read true) k) := by
  have hp := cellAt_area h
  have hc := cellOf_run (.read true) h
  unfold readWord
  rw [Act.ite_run, if_neg he]
  unfold Machine.areaAt
  rw [Act.look_bind]
  unfold State.areaAt at hp hc
  cases ha : areaOf s.env.device s.effMap p with
  | sfr r => exact absurd ha (hp.1 r)
  | can c => exact absurd ha (hp.2.1 c)
  | _ => dsimp only; rw [ha] at hc; rw [Act.bind_ok hc]; rfl

theorem readByte_run {s : State} {p : Addr} {k : Nat} (h : s.cellAt false p = some k) :
    readByte p s = .ok (s.mem.get k, s.shown p (.read false) k) := by
  have hp := cellAt_area h
  have hc := cellOf_run (.read false) h
  unfold readByte Machine.areaAt
  rw [Act.look_bind]
  unfold State.areaAt at hp hc
  cases ha : areaOf s.env.device s.effMap p with
  | sfr r => exact absurd ha (hp.1 r)
  | can c => exact absurd ha (hp.2.1 c)
  | _ => dsimp only; rw [ha] at hc; rw [Act.bind_ok hc]; rfl

theorem writableAt_plain {s : State} {p : Addr} {k : Nat} (h : s.writableAt p = some k) :
    s.cellAt true p = some k := by
  unfold State.writableAt at h
  split at h
  · cases h
  · exact h

theorem checkRom_run {s : State} {p : Addr} {k : Nat} (h : s.writableAt p = some k) :
    checkRom (s.areaAt p) s = .ok ((), s) := by
  unfold State.writableAt at h
  split at h
  · cases h
  · rename_i hr
    cases ha : s.areaAt p with
    | rom off => exact absurd ha (hr off)
    | romAbsent => unfold State.cellAt at h; simp [ha] at h
    | _ => rfl

theorem writeWord_run {s : State} {p : Addr} {k : Nat} (v : Word) (h : s.writableAt p = some k)
    (he : ¬p.toNat % 2 = 1) : writeWord p v s = .ok ((), (s.shown p (.ofWord v) k).storeWord k v) := by
  have hp := cellAt_area (writableAt_plain h)
  have hc := cellOf_run (.ofWord v) (writableAt_plain h)
  unfold writeWord
  rw [Act.ite_run, if_neg he]
  unfold Machine.areaAt
  rw [Act.look_bind]
  have hm := checkRom_run h
  unfold State.areaAt at hp hc hm
  cases ha : areaOf s.env.device s.effMap p with
  | sfr r => exact absurd ha (hp.1 r)
  | can c => exact absurd ha (hp.2.1 c)
  | _ => dsimp only; rw [ha] at hc hm; rw [Act.bind_ok hm, Act.bind_ok hc]; rfl

theorem writeByte_run {s : State} {p : Addr} {k : Nat} (v : Byte) (h : s.writableAt p = some k) :
    writeByte p v s = .ok ((), (s.shown p (.ofByte v) k).storeCell k v) := by
  have hp := cellAt_area (writableAt_plain h)
  have hc := cellOf_run (.ofByte v) (writableAt_plain h)
  unfold writeByte Machine.areaAt
  rw [Act.look_bind]
  have hm := checkRom_run h
  unfold State.areaAt at hp hc hm
  cases ha : areaOf s.env.device s.effMap p with
  | sfr r => exact absurd ha (hp.1 r)
  | can c => exact absurd ha (hp.2.1 c)
  | _ => dsimp only; rw [ha] at hc hm; rw [Act.bind_ok hm, Act.bind_ok hc]; rfl

/-- A word read at an odd address: ILLOPA is raised and a free value read. -/
theorem readWord_odd {s : State} {p : Addr} (h : p.toNat % 2 = 1) :
    readWord p s = .ok (Config.freeWord .oddRead s.free p.toNat, s.raise tfrIllopa) := by
  unfold readWord
  rw [Act.ite_run, if_pos h]
  unfold raiseTrap
  rw [Act.change_bind]
  rfl

/-- A word written to an odd address: ILLOPA is raised and nothing written. -/
theorem writeWord_odd {s : State} {p : Addr} (v : Word) (h : p.toNat % 2 = 1) :
    writeWord p v s = .ok ((), s.raise tfrIllopa) := by
  unfold writeWord
  rw [Act.ite_run, if_pos h]
  rfl

/-! ## Short addresses -/

theorem readReg_gpr {s : State} {q : Byte} (hq : isGprCode q = true) (h : s.bank = true) :
    readReg q s = .ok (s.gpr (gprOfCode q), s) := by
  unfold readReg; rw [if_pos hq]; exact readGpr_run _ h

theorem writeReg_gpr {s : State} {q : Byte} (v : Word) (hq : isGprCode q = true) (h : s.bank = true) :
    writeReg q v s = .ok ((), s.storeWord (s.gprAt (gprOfCode q)) v) := by
  unfold writeReg; rw [if_pos hq]; exact writeGpr_run _ _ h

theorem readRegB_gpr {s : State} {q : Byte} (hq : isGprCode q = true) (h : s.bank = true) :
    readRegB q s = .ok (s.gprB (gprOfCode q), s) := by
  unfold readRegB; rw [if_pos hq]; exact readGprB_run _ h

theorem writeRegB_gpr {s : State} {q : Byte} (v : Byte) (hq : isGprCode q = true) (h : s.bank = true) :
    writeRegB q v s = .ok ((), s.storeCell (s.gprBAt (gprOfCode q)) v) := by
  unfold writeRegB; rw [if_pos hq]; exact writeGprB_run _ _ h

theorem readReg_sfr {s : State} {q : Byte} (hq : isGprCode q = false) (h : (s.regNum q).present = true) :
    readReg q s = .ok (s.sfrValue (s.regNum q), s.afterSfrRead (s.regNum q)) := by
  unfold readReg
  simp only [hq, Bool.false_eq_true, if_false]
  unfold sfrOfCode
  rw [Act.look_bind]
  exact readSfr_run h

theorem writeReg_sfr {s : State} {q : Byte} {v : Word} (hq : isGprCode q = false)
    (h : (s.regNum q).present = true) (hr : s.sfrRefusal (s.regNum q) = none) :
    writeReg q v s = .ok ((), s.storeSfr (s.regNum q) v 0xFFFF) := by
  unfold writeReg
  simp only [hq, Bool.false_eq_true, if_false]
  unfold sfrOfCode
  rw [Act.look_bind]
  exact writeSfr_run h hr

theorem readRegB_sfr {s : State} {q : Byte} (hq : isGprCode q = false) (h : (s.regNum q).present = true) :
    readRegB q s = .ok (loByte (s.sfrValue (s.regNum q)), s.afterSfrRead (s.regNum q)) := by
  unfold readRegB
  simp only [hq, Bool.false_eq_true, if_false]
  unfold sfrOfCode
  rw [Act.look_bind]
  show (readSfr (s.regNum q) >>= _) s = _
  rw [Act.bind_ok (readSfr_run h)]
  rfl

theorem writeRegB_sfr {s : State} {q v : Byte} (hq : isGprCode q = false)
    (h : (s.regNum q).present = true) (hr : s.sfrRefusal (s.regNum q) = none) :
    writeRegB q v s = .ok ((), s.storeSfr (s.regNum q) (mkWord v 0) 0xFFFF) := by
  unfold writeRegB
  simp only [hq, Bool.false_eq_true, if_false]
  unfold sfrOfCode
  rw [Act.look_bind]
  exact writeSfr_run h hr

/-! ## The stack -/

theorem stackCell_run {s : State} {sp : Word} {k : Nat} (h : s.stackAt sp = some k) :
    stackCell sp s = .ok (k, s) := by
  unfold State.stackAt at h
  unfold stackCell
  rw [Act.look_bind]
  cases hb : stackBits (fieldNat s.effMap.syscon 13 3) with
  | none => rw [hb] at h; cases h
  | some b =>
    rw [hb] at h
    dsimp only at h ⊢
    split at h
    · rename_i hc
      cases h
      rw [Act.ite_run, if_pos hc]
      rfl
    · cases h

theorem push_run {s : State} {k : Nat} (v : Word) (h : s.stackAt s.spDown = some k) :
    push v s = .ok ((), s.pushed k v) := by
  unfold push
  rw [Act.look_bind, Act.bind_ok (stackCell_run (by exact h)), Act.change_bind, Act.look_bind]
  unfold State.pushed
  by_cases hc : s.spDown < s.core.stkov
  · have hd : stackNorm (s.core.sp - 2) < ((s.storeWord k v).setSp (stackNorm (s.core.sp - 2))).core.stkov := hc
    rw [Act.ite_run, if_pos (decide_eq_true hd), if_pos hc]; rfl
  · have hd : ¬stackNorm (s.core.sp - 2) < ((s.storeWord k v).setSp (stackNorm (s.core.sp - 2))).core.stkov := hc
    rw [Act.ite_run, if_neg (by rw [decide_eq_true_eq]; exact hd), if_neg hc]; rfl

theorem pop_run {s : State} {k : Nat} (h : s.stackAt s.effSp = some k) :
    pop s = .ok (s.mem.getWord k, s.popped) := by
  unfold pop
  rw [Act.look_bind, Act.bind_ok (stackCell_run h), Act.look_bind]
  dsimp only
  rw [Act.change_bind, Act.look_bind]
  unfold State.popped
  have hu : (s.setSp (stackNorm (s.effSp + 2))).core.stkun = s.core.stkun := rfl
  simp only [hu]
  by_cases hc : s.core.stkun < stackNorm (s.effSp + 2)
  · rw [Act.ite_run, if_pos (decide_eq_true hc), if_pos hc]; rfl
  · rw [Act.ite_run, if_neg (by rw [decide_eq_true_eq]; exact hc), if_neg hc]; rfl

/-! ## Flags and the program counter -/

@[simp] theorem setFlags_run (f : Flags) (s : State) : setFlags f s = .ok ((), s.withFlags f) := rfl

@[simp] theorem next_run (n : Nat) (s : State) : next n s = .ok ((), s.advance n) := rfl

@[simp] theorem jump_run (ip : Word) (s : State) : jump ip s = .ok ((), s.branch ip) := rfl

@[simp] theorem cacheJump_run (t : Word) (s : State) : cacheJump t s = .ok ((), (s.fillCache t).branch t) := by
  unfold cacheJump; rw [Act.change_bind]; rfl

/-- The two-operand ALU operation, from what its operands read as. -/
theorem aluStep_run {w : Nat} {f : Alu w} {op2 op1 : Act (BitVec w)} {wr : BitVec w → Act Unit} {s s1 s2 : State}
    {a b : BitVec w} (h2 : op2 s = .ok (b, s1)) (h1 : op1 s1 = .ok (a, s2)) :
    aluStep f op2 op1 wr s = wr (f s2.core.psw a b).1 (s2.withFlags (f s2.core.psw a b).2) := by
  unfold aluStep
  rw [Act.bind_ok h2, Act.bind_ok h1, Act.look_bind]
  rw [Act.bind_ok (setFlags_run _ _)]

/-- A move, from what its source reads as. -/
theorem moveStep_run {w : Nat} {src : Act (BitVec w)} {wr : BitVec w → Act Unit} {s s1 : State} {v : BitVec w}
    (h : src s = .ok (v, s1)) : moveStep src wr s = wr v (s1.withFlags (moveFlags s1.core.psw v)) := by
  unfold moveStep
  rw [Act.bind_ok h]
  rfl

/-! ## Resuming a multiply or divide -/

/-- What `resumeFrame` does: the matching frame's MDH and MDL come back and the frame is gone; without one, nothing is to
be resumed any more, and the result is known only if nothing was. -/
theorem resumeFrame_run (m : MulInstr) (a b : Word) (s : State) :
    resumeFrame m a b s =
      match s.suspendedFrame m a b with
      | none => .ok (!s.sys.resume, { s with sys := { s.sys with resume := false } })
      | some f => .ok (true, { s with
          core := { s.core with mdh := f.mdh, mdl := f.mdl }
          sys := { s.sys with resume := false, suspended := s.sys.suspended.erase f } }) := by
  unfold resumeFrame
  rw [Act.look_bind, Act.look_bind]
  cases s.suspendedFrame m a b <;> rfl

/-- A multiply or divide that resumes nothing starts with the registers as they are. -/
theorem resumeFrame_fresh {m : MulInstr} {a b : Word} {s : State} (hr : s.sys.resume = false)
    (hf : s.suspendedFrame m a b = none) : resumeFrame m a b s = .ok (true, s) := by
  rw [resumeFrame_run, hf]
  have h : ({ s with sys := { s.sys with resume := false } } : State) = s := by rw [← hr]
  simp only [hr, h, Bool.not_false]

end Sys2Proof.Machine
end

