-- ==== Sys2Proof/Laws/Views.lean ====
section
/-! SUPPORT. The operand accesses of the machine meet what the claims say of operands (Safety.lean): every read and
write for which a `View` names an outcome runs and has that outcome. -/
namespace Sys2Proof.Machine

/-! ## What a read leaves alone -/

/-- `t` has the core, the hidden CPU state, memory, environment and free values of `s`. -/
def SameCpu (s t : State) : Prop :=
  t.core = s.core ∧ t.sys = s.sys ∧ t.mem = s.mem ∧ t.env = s.env ∧ t.free = s.free

theorem SameCpu.refl (s : State) : SameCpu s s := ⟨rfl, rfl, rfl, rfl, rfl⟩

theorem SameCpu.trans {s t u : State} (h : SameCpu s t) (k : SameCpu t u) : SameCpu s u :=
  ⟨k.1.trans h.1, k.2.1.trans h.2.1, k.2.2.1.trans h.2.2.1, k.2.2.2.1.trans h.2.2.2.1, k.2.2.2.2.trans h.2.2.2.2⟩

theorem setReg_sameCpu (s : State) (r : Sfr) (v : Word) : SameCpu s (s.setReg r v) := ⟨rfl, rfl, rfl, rfl, rfl⟩

theorem canUpdate_sameCpu (s : State) : SameCpu s s.canUpdate := by
  unfold State.canUpdate
  dsimp only
  split_ifs <;> exact ⟨rfl, rfl, rfl, rfl, rfl⟩

theorem canReadStatus_sameCpu (s : State) : SameCpu s s.canReadStatus :=
  SameCpu.trans (t := { s with can := { s.can with statusInt := false } }) ⟨rfl, rfl, rfl, rfl, rfl⟩
    (canUpdate_sameCpu _)

theorem SameCpu.ite {s a b : State} {c : Prop} [Decidable c] (ha : SameCpu s a) (hb : SameCpu s b) :
    SameCpu s (if c then a else b) := by split <;> assumption

theorem adcStart_sameCpu (s : State) (ch : BitVec 4) (b : Bool) : SameCpu s (s.adcStart ch b) :=
  ⟨rfl, rfl, rfl, rfl, rfl⟩

theorem adcSet_sameCpu (s : State) (i : Nat) (b : Bool) : SameCpu s (s.adcSet i b) := by
  unfold State.adcSet
  exact SameCpu.ite (SameCpu.refl s) ⟨rfl, rfl, rfl, rfl, rfl⟩

theorem adcDeliver_sameCpu (s : State) (b : Bool) (v : Word) : SameCpu s (s.adcDeliver b v) := by
  unfold State.adcDeliver
  refine SameCpu.ite ⟨rfl, rfl, rfl, rfl, rfl⟩ (SameCpu.ite (SameCpu.trans ?_ (adcSet_sameCpu _ 11 false)) ?_)
  · exact ⟨rfl, rfl, rfl, rfl, rfl⟩
  refine SameCpu.trans (t := if s.adc.addatFull then s.request Sfr.adeic else s) ?_ ⟨rfl, rfl, rfl, rfl, rfl⟩
  exact SameCpu.ite ⟨rfl, rfl, rfl, rfl, rfl⟩ (SameCpu.refl s)

theorem adcStop_sameCpu (s : State) (b : Bool) : SameCpu s (s.adcStop b) := by
  refine SameCpu.trans (t := if b then (s.setRegBit Sfr.adcon 8 false).adcSet 7 false
    else s.setRegBit Sfr.adcon 8 false) ?_ ⟨rfl, rfl, rfl, rfl, rfl⟩
  refine SameCpu.ite (SameCpu.trans ?_ (adcSet_sameCpu _ 7 false)) ⟨rfl, rfl, rfl, rfl, rfl⟩
  exact ⟨rfl, rfl, rfl, rfl, rfl⟩

theorem adcContinue_sameCpu (s : State) : SameCpu s s.adcContinue := by
  unfold State.adcContinue
  refine SameCpu.ite (adcStop_sameCpu s false) (SameCpu.ite ?_ (SameCpu.ite (adcStart_sameCpu _ _ _)
    (SameCpu.ite (adcStop_sameCpu s true) ⟨rfl, rfl, rfl, rfl, rfl⟩)))
  refine SameCpu.ite ?_ ⟨rfl, rfl, rfl, rfl, rfl⟩
  exact SameCpu.trans
    (t := { s with adc := { s.adc with seqMode := (s.reg Sfr.adcon).extractLsb' 4 2 } }) ⟨rfl, rfl, rfl, rfl, rfl⟩
    (adcStop_sameCpu _ true)

theorem adcNext_sameCpu (s : State) : SameCpu s s.adcNext := by
  unfold State.adcNext
  exact SameCpu.ite ⟨rfl, rfl, rfl, rfl, rfl⟩ (SameCpu.ite (adcStart_sameCpu _ _ _) (adcContinue_sameCpu s))

theorem adcUnbuffer_sameCpu (s : State) (b : Bool) : SameCpu s (s.adcUnbuffer b) := by
  unfold State.adcUnbuffer
  split
  · rename_i t v _
    refine SameCpu.ite ?_ (SameCpu.refl s)
    refine SameCpu.trans (t := s.adcClearTmp) ⟨rfl, rfl, rfl, rfl, rfl⟩ ?_
    refine SameCpu.trans (adcDeliver_sameCpu _ b v) ?_
    unfold State.adcResume
    exact SameCpu.ite (adcNext_sameCpu _) (SameCpu.refl _)
  · exact SameCpu.refl s

theorem adcRead_sameCpu (s : State) (b : Bool) : SameCpu s (s.adcRead b) := by
  unfold State.adcRead
  split
  · exact SameCpu.trans (t := { s with adc := { s.adc with addat2Full := false } }) ⟨rfl, rfl, rfl, rfl, rfl⟩
      (adcUnbuffer_sameCpu _ _)
  · exact SameCpu.trans (t := { s with adc := { s.adc with addatFull := false } }) ⟨rfl, rfl, rfl, rfl, rfl⟩
      (adcUnbuffer_sameCpu _ _)

/-- A read keeps CP, the replaced values, memory, the free values and the locked sequence. -/
def SameBank (s t : State) : Prop :=
  t.core.cp = s.core.cp ∧ t.sys.lag = s.sys.lag ∧ t.sys.lagNext = s.sys.lagNext ∧ t.mem = s.mem ∧ t.free = s.free ∧
    t.sys.ext = s.sys.ext

theorem SameCpu.bank {s t : State} (h : SameCpu s t) : SameBank s t :=
  ⟨by rw [h.1], by rw [h.2.1], by rw [h.2.1], h.2.2.1, h.2.2.2.2, by rw [h.2.1]⟩

theorem SameBank.effCp {s t : State} (h : SameBank s t) : t.effCp = s.effCp := by
  unfold State.effCp hazard
  rw [h.1, h.2.1, h.2.2.1, h.2.2.2.2.1]

theorem SameBank.bank {s t : State} (h : SameBank s t) : t.bank = s.bank := by
  unfold State.bank; rw [h.effCp]

theorem SameBank.regNum {s t : State} (h : SameBank s t) (q : Byte) : t.regNum q = s.regNum q := by
  unfold State.regNum; rw [h.2.2.2.2.2]

theorem SameBank.refl (s : State) : SameBank s s := ⟨rfl, rfl, rfl, rfl, rfl, rfl⟩

theorem afterSfrRead_sameBank (s : State) (r : Sfr) : SameBank s (s.afterSfrRead r) := by
  unfold State.afterSfrRead
  split_ifs
  · exact ⟨rfl, rfl, rfl, rfl, rfl, rfl⟩
  · exact ⟨rfl, rfl, rfl, rfl, rfl, rfl⟩
  · exact ⟨rfl, rfl, rfl, rfl, rfl, rfl⟩
  · exact (adcRead_sameCpu s false).bank
  · exact (adcRead_sameCpu s true).bank
  · exact SameBank.refl s

theorem shown_sameCpu (s : State) (p : Addr) (c : Access) (k : Nat) : SameCpu s (s.shown p c k) :=
  ⟨rfl, rfl, rfl, rfl, rfl⟩

theorem raise_sameBank (s : State) (m : Word) : SameBank s (s.raise m) := ⟨rfl, rfl, rfl, rfl, rfl, rfl⟩

/-! ## Memory operands -/

/-- The bus lines after an access to the CAN module. -/
theorem shown_can {s : State} {p : Addr} {k : Fin 256} {c : Access}
    (h : areaOf s.env.device s.effMap p = .can k) : s.access (.can k) p c 0 = s.shown p c 0 := by
  unfold State.shown State.areaAt; rw [h]

theorem readWord_at {s t : State} {p : Addr} {v : Word} (h : s.wordIn p = some (v, t)) : readWord p s = .ok (v, t) := by
  unfold State.wordIn State.areaAt at h
  split at h
  · rename_i ho
    cases h
    exact readWord_odd ho
  · rename_i ho
    cases ha : areaOf s.env.device s.effMap p with
    | sfr r =>
      rw [ha] at h
      dsimp only at h
      split at h
      · rename_i hp
        cases h
        unfold readWord Machine.areaAt
        rw [Act.ite_run, if_neg ho, Act.look_bind, ha]
        exact readSfr_run hp
      · cases h
    | can k =>
      rw [ha] at h
      cases h
      unfold readWord Machine.areaAt
      rw [Act.ite_run, if_neg ho, Act.look_bind, ha]
      dsimp only
      rw [Act.change_bind, shown_can ha]
      unfold readCanWord canAck
      rw [Act.look_bind]
      by_cases hk : (canHigh k).val = 1
      · rw [if_pos hk]
        show ((if (canHigh k).val = 1 then change State.canReadStatus else pure ()) >>= _)
          (s.shown p (.read true) 0) = _
        rw [if_pos hk, Act.change_bind]
        rfl
      · rw [if_neg hk]
        show ((if (canHigh k).val = 1 then change State.canReadStatus else pure ()) >>= _)
          (s.shown p (.read true) 0) = _
        rw [if_neg hk]
        rfl
    | noBus =>
      rw [ha] at h
      cases h
      unfold readWord Machine.areaAt
      rw [Act.ite_run, if_neg ho, Act.look_bind, ha]
      rfl
    | romAbsent =>
      rw [ha] at h
      by_cases hb : s.sys.bslMode = true
      · simp only [hb, if_true] at h
        cases h
        unfold readWord Machine.areaAt
        rw [Act.ite_run, if_neg ho, Act.look_bind, ha]
        dsimp only
        unfold cellOf
        dsimp only
        rw [Act.bind_run, Act.look_bind, hb]
        rfl
      · simp only [hb] at h; cases h
    | _ =>
      rw [ha] at h
      simp only [Option.map_eq_some_iff] at h
      obtain ⟨k, hk, hv⟩ := h
      cases hv
      exact readWord_run hk ho

theorem readByte_at {s t : State} {p : Addr} {v : Byte} (h : s.byteIn p = some (v, t)) :
    readByte p s = .ok (v, t) := by
  unfold State.byteIn State.areaAt at h
  cases ha : areaOf s.env.device s.effMap p with
  | sfr r =>
    rw [ha] at h
    dsimp only at h
    split at h
    · rename_i hp
      cases h
      unfold readByte Machine.areaAt
      rw [Act.look_bind, ha]
      dsimp only
      rw [Act.bind_ok (readSfr_run hp)]
      rfl
    · cases h
  | can k =>
    rw [ha] at h
    cases h
    unfold readByte Machine.areaAt
    rw [Act.look_bind, ha]
    dsimp only
    rw [Act.change_bind, shown_can ha]
    unfold readCanByte canAck
    rw [Act.look_bind]
    by_cases hk : k.val = 1
    · rw [if_pos hk, if_pos hk, Act.change_bind]; rfl
    · rw [if_neg hk, if_neg hk]; rfl
  | noBus =>
    rw [ha] at h
    cases h
    unfold readByte Machine.areaAt
    rw [Act.look_bind, ha]
    rfl
  | romAbsent =>
    rw [ha] at h
    by_cases hb : s.sys.bslMode = true
    · simp only [hb, if_true] at h
      cases h
      unfold readByte Machine.areaAt
      rw [Act.look_bind, ha]
      dsimp only
      unfold cellOf
      dsimp only
      rw [Act.bind_run, Act.look_bind, hb]
      rfl
    · simp only [hb] at h; cases h
  | _ =>
    rw [ha] at h
    simp only [Option.map_eq_some_iff] at h
    obtain ⟨k, hk, hv⟩ := h
    cases hv
    exact readByte_run hk

theorem sfrStored_run {s t : State} {r : Sfr} {v : Word} (h : s.sfrStored r v = some t) :
    writeSfr r v s = .ok ((), t) := by
  unfold State.sfrStored at h
  split at h
  · rename_i hc
    cases h
    rw [Bool.and_eq_true, Option.isNone_iff_eq_none] at hc
    exact writeSfr_run hc.1 hc.2
  · cases h

theorem canStored_run {s t : State} {l : List (Fin 256 × Byte)} (h : s.canStored l = some t) :
    writeCan l s = .ok ((), t) := by
  unfold State.canStored at h
  split at h
  · rename_i hc
    cases h
    rw [Option.isNone_iff_eq_none] at hc
    unfold writeCan
    rw [Act.look_bind, hc]
    rfl
  · cases h

theorem writeWord_at {s t : State} {p : Addr} {v : Word} (h : s.wordInto p v = some t) :
    writeWord p v s = .ok ((), t) := by
  unfold State.wordInto State.areaAt at h
  split at h
  · rename_i ho
    cases h
    exact writeWord_odd v ho
  · rename_i ho
    cases ha : areaOf s.env.device s.effMap p with
    | sfr r =>
      rw [ha] at h
      unfold writeWord Machine.areaAt
      rw [Act.ite_run, if_neg ho, Act.look_bind, ha]
      exact sfrStored_run h
    | can k =>
      rw [ha] at h
      unfold writeWord Machine.areaAt
      rw [Act.ite_run, if_neg ho, Act.look_bind, ha]
      dsimp only
      rw [Act.change_bind, shown_can ha]
      exact canStored_run h
    | noBus =>
      rw [ha] at h
      cases h
      unfold writeWord Machine.areaAt
      rw [Act.ite_run, if_neg ho, Act.look_bind, ha]
      rfl
    | _ =>
      rw [ha] at h
      simp only [Option.map_eq_some_iff] at h
      obtain ⟨k, hk, hv⟩ := h
      cases hv
      exact writeWord_run v hk ho

theorem writeByte_at {s t : State} {p : Addr} {v : Byte} (h : s.byteInto p v = some t) :
    writeByte p v s = .ok ((), t) := by
  unfold State.byteInto State.areaAt at h
  cases ha : areaOf s.env.device s.effMap p with
  | sfr r =>
    rw [ha] at h
    unfold writeByte Machine.areaAt
    rw [Act.look_bind, ha]
    exact sfrStored_run h
  | can k =>
    rw [ha] at h
    unfold writeByte Machine.areaAt
    rw [Act.look_bind, ha]
    dsimp only
    rw [Act.change_bind, shown_can ha]
    exact canStored_run h
  | noBus =>
    rw [ha] at h
    cases h
    unfold writeByte Machine.areaAt
    rw [Act.look_bind, ha]
    rfl
  | _ =>
    rw [ha] at h
    simp only [Option.map_eq_some_iff] at h
    obtain ⟨k, hk, hv⟩ := h
    cases hv
    exact writeByte_run v hk

theorem readMem_at {s t : State} {a v : Word} (h : s.wordAt a = some (v, t)) : readMem a s = .ok (v, t) := by
  unfold readMem; rw [Act.look_bind]; exact readWord_at h

theorem readMemB_at {s t : State} {a : Word} {v : Byte} (h : s.byteAt a = some (v, t)) :
    readMemB a s = .ok (v, t) := by
  unfold readMemB; rw [Act.look_bind]; exact readByte_at h

theorem writeMem_at {s t : State} {a v : Word} (h : s.wordStored a v = some t) : writeMem a v s = .ok ((), t) := by
  unfold writeMem; rw [Act.look_bind]; exact writeWord_at h

theorem writeMemB_at {s t : State} {a : Word} {v : Byte} (h : s.byteStored a v = some t) :
    writeMemB a v s = .ok ((), t) := by
  unfold writeMemB; rw [Act.look_bind]; exact writeByte_at h

/-! ## Register operands -/

theorem readReg_at {s t : State} {q : Byte} {v : Word} (h : s.regWord q = some (v, t)) : readReg q s = .ok (v, t) := by
  unfold State.regWord at h
  split at h
  · rename_i hq
    split at h
    · rename_i hb; cases h; exact readReg_gpr hq hb
    · cases h
  · rename_i hq
    split at h
    · rename_i hp; cases h; exact readReg_sfr (by simpa using hq) hp
    · cases h

theorem readRegB_at {s t : State} {q v : Byte} (h : s.regByte q = some (v, t)) : readRegB q s = .ok (v, t) := by
  unfold State.regByte at h
  split at h
  · rename_i hq
    split at h
    · rename_i hb; cases h; exact readRegB_gpr hq hb
    · cases h
  · rename_i hq
    split at h
    · rename_i hp; cases h; exact readRegB_sfr (by simpa using hq) hp
    · cases h

theorem writeReg_at {s t : State} {q : Byte} {v : Word} (h : s.regWordStored q v = some t) :
    writeReg q v s = .ok ((), t) := by
  unfold State.regWordStored at h
  unfold writeReg
  split at h
  · rename_i hq
    split at h
    · rename_i hb; cases h; rw [if_pos hq]; exact writeGpr_run _ _ hb
    · cases h
  · rename_i hq
    rw [if_neg hq]
    unfold sfrOfCode
    rw [Act.look_bind]
    exact sfrStored_run h

theorem writeRegB_at {s t : State} {q v : Byte} (h : s.regByteStored q v = some t) :
    writeRegB q v s = .ok ((), t) := by
  unfold State.regByteStored at h
  unfold writeRegB
  split at h
  · rename_i hq
    split at h
    · rename_i hb; cases h; rw [if_pos hq]; exact writeGprB_run _ _ hb
    · cases h
  · rename_i hq
    rw [if_neg hq]
    unfold sfrOfCode
    rw [Act.look_bind]
    exact sfrStored_run h

/-! ## Reads keep the register bank -/

theorem wordIn_sameBank {s t : State} {p : Addr} {v : Word} (h : s.wordIn p = some (v, t)) : SameBank s t := by
  unfold State.wordIn State.areaAt at h
  by_cases ho : p.toNat % 2 = 1
  · rw [if_pos ho] at h; cases h; exact raise_sameBank _ _
  · rw [if_neg ho] at h
    cases ha : areaOf s.env.device s.effMap p with
    | sfr r =>
      rw [ha] at h
      by_cases hp : r.present = true
      · simp only [hp, if_true] at h; cases h; exact afterSfrRead_sameBank _ _
      · simp only [hp] at h; cases h
    | can k =>
      rw [ha] at h
      cases h
      by_cases hk : (canHigh k).val = 1
      · rw [if_pos hk]; exact ((shown_sameCpu s p _ 0).trans (canReadStatus_sameCpu _)).bank
      · rw [if_neg hk]; exact (shown_sameCpu s p _ 0).bank
    | noBus => rw [ha] at h; cases h; exact raise_sameBank _ _
    | romAbsent =>
      rw [ha] at h
      by_cases hb : s.sys.bslMode = true
      · simp only [hb, if_true] at h; cases h; exact SameBank.refl s
      · simp only [hb] at h; cases h
    | _ =>
      rw [ha] at h
      simp only [Option.map_eq_some_iff] at h
      obtain ⟨k, _, hv⟩ := h
      cases hv
      exact (shown_sameCpu s p _ k).bank

theorem byteIn_sameBank {s t : State} {p : Addr} {v : Byte} (h : s.byteIn p = some (v, t)) : SameBank s t := by
  unfold State.byteIn State.areaAt at h
  cases ha : areaOf s.env.device s.effMap p with
  | sfr r =>
    rw [ha] at h
    by_cases hp : r.present = true
    · simp only [hp, if_true] at h; cases h; exact afterSfrRead_sameBank _ _
    · simp only [hp] at h; cases h
  | can k =>
    rw [ha] at h
    cases h
    by_cases hk : k.val = 1
    · rw [if_pos hk]; exact ((shown_sameCpu s p _ 0).trans (canReadStatus_sameCpu _)).bank
    · rw [if_neg hk]; exact (shown_sameCpu s p _ 0).bank
  | noBus => rw [ha] at h; cases h; exact raise_sameBank _ _
  | romAbsent =>
    rw [ha] at h
    by_cases hb : s.sys.bslMode = true
    · simp only [hb, if_true] at h; cases h; exact SameBank.refl s
    · simp only [hb] at h; cases h
  | _ =>
    rw [ha] at h
    simp only [Option.map_eq_some_iff] at h
    obtain ⟨k, _, hv⟩ := h
    cases hv
    exact (shown_sameCpu s p _ k).bank

theorem regWord_sameBank {s t : State} {q : Byte} {v : Word} (h : s.regWord q = some (v, t)) : SameBank s t := by
  unfold State.regWord at h
  split at h
  · split at h
    · cases h; exact SameBank.refl s
    · cases h
  · split at h
    · cases h; exact afterSfrRead_sameBank _ _
    · cases h

theorem regByte_sameBank {s t : State} {q v : Byte} (h : s.regByte q = some (v, t)) : SameBank s t := by
  unfold State.regByte at h
  split at h
  · split at h
    · cases h; exact SameBank.refl s
    · cases h
  · split at h
    · cases h; exact afterSfrRead_sameBank _ _
    · cases h

/-! ## Both widths at once -/

/-- The accesses of a width have the outcomes the claims name. -/
structure Matches {w : Nat} (W : Width w) (V : View w) : Prop where
  readGpr : ∀ {s : State} (n : Gpr), s.bank = true → W.readGpr n s = .ok (V.gpr s n, s)
  writeGpr : ∀ {s u : State} {f : Flags} (n : Gpr) (v : BitVec w) (len : Nat), u = s.withFlags f → s.bank = true →
    ∃ t, W.writeGpr n v u = .ok ((), t) ∧ V.Written s (t.advance len) (V.gprAt s n) v f len
  readMem : ∀ {s t : State} {a : Word} {v : BitVec w}, V.readAt s a = some (v, t) → W.readMem a s = .ok (v, t)
  readReg : ∀ {s t : State} {q : Byte} {v : BitVec w}, V.regAt s q = some (v, t) → W.readReg q s = .ok (v, t)
  writeMem : ∀ {s t : State} {a : Word} {v : BitVec w}, V.stored s a v = some t → W.writeMem a v s = .ok ((), t)
  writeReg : ∀ {s t : State} {q : Byte} {v : BitVec w}, V.regStored s q v = some t → W.writeReg q v s = .ok ((), t)
  cell : ∀ {s : State} {f : Flags} {a : Word} {k : Nat} (v : BitVec w) (len : Nat), V.cell s a = some k →
    ∃ t, V.stored (s.withFlags f) a v = some t ∧ V.Written s (t.advance len) k v f len
  gprReg : ∀ {s : State} {f : Flags} {q : Byte} (v : BitVec w) (len : Nat), isGprCode q = true → s.bank = true →
    ∃ t, V.regStored (s.withFlags f) q v = some t ∧ V.Written s (t.advance len) (V.gprAt s (gprOfCode q)) v f len
  readBank : ∀ {s t : State} {a : Word} {v : BitVec w}, V.readAt s a = some (v, t) → t.bank = s.bank
  regBank : ∀ {s t : State} {q : Byte} {v : BitVec w}, V.regAt s q = some (v, t) → t.bank = s.bank
  step : W.step = V.step
  within : W.within = V.within
  open_ : ∀ {s : State}, W.open_ 0 s = .ok (V.aliased s, s)

theorem even_not_odd {s : State} {a : Word} (h : s.even a = true) : ¬(s.dataAddr a).toNat % 2 = 1 := by
  simp only [State.even, decide_eq_true_eq] at h; omega

theorem wordStored_plain {s : State} {a : Word} {k : Nat} (v : Word) (h : s.writeCell a = some k)
    (he : s.even a = true) :
    s.wordStored a v = some ((s.shown (s.dataAddr a) (.ofWord v) k).storeWord k v) := by
  have hp := cellAt_area (writableAt_plain h)
  unfold State.wordStored State.wordInto
  rw [if_neg (even_not_odd he)]
  unfold State.writeCell at h
  cases ha : s.areaAt (s.dataAddr a) with
  | sfr r => exact absurd ha (hp.1 r)
  | can c => exact absurd ha (hp.2.1 c)
  | noBus => exact absurd ha hp.2.2
  | _ => dsimp only; rw [h]; rfl

theorem byteStored_plain {s : State} {a : Word} {k : Nat} (v : Byte) (h : s.writeCell a = some k) :
    s.byteStored a v = some ((s.shown (s.dataAddr a) (.ofByte v) k).storeCell k v) := by
  have hp := cellAt_area (writableAt_plain h)
  unfold State.byteStored State.byteInto
  unfold State.writeCell at h
  cases ha : s.areaAt (s.dataAddr a) with
  | sfr r => exact absurd ha (hp.1 r)
  | can c => exact absurd ha (hp.2.1 c)
  | noBus => exact absurd ha hp.2.2
  | _ => dsimp only; rw [h]; rfl

theorem word_matches : Matches wordW wordView where
  readGpr n h := readGpr_run n h
  writeGpr n v len hu h := by
    subst hu
    exact ⟨_, writeGpr_run n v (by exact h), wordWritten_store _ _ _ _ _⟩
  readMem h := readMem_at h
  readReg h := readReg_at h
  writeMem h := writeMem_at h
  writeReg h := writeReg_at h
  cell := by
    intro s f a k v len h
    replace h : (if s.even a = true then s.writeCell a else none) = some k := h
    by_cases he : s.even a = true
    · rw [if_pos he] at h
      exact ⟨_, wordStored_plain v (show (s.withFlags f).writeCell a = some k from h) he,
        wordWritten_shown _ _ _ _ _ _ _⟩
    · rw [if_neg he] at h; cases h
  gprReg := by
    intro s f q v len hq hb
    refine ⟨(s.withFlags f).storeWord (s.gprAt (gprOfCode q)) v, ?_, wordWritten_store _ _ _ _ _⟩
    show State.regWordStored (s.withFlags f) q v = _
    unfold State.regWordStored
    rw [if_pos hq, if_pos (by exact hb)]
    rfl
  readBank h := (wordIn_sameBank h).bank
  regBank h := (regWord_sameBank h).bank
  step := rfl
  within := rfl
  open_ := rfl

theorem byte_matches : Matches byteW byteView where
  readGpr n h := readGprB_run n h
  writeGpr n v len hu h := by
    subst hu
    exact ⟨_, writeGprB_run n v (by exact h), byteWritten_store _ _ _ _ _⟩
  readMem h := readMemB_at h
  readReg h := readRegB_at h
  writeMem h := writeMemB_at h
  writeReg h := writeRegB_at h
  cell := by
    intro s f a k v len h
    exact ⟨_, byteStored_plain v (show (s.withFlags f).writeCell a = some k from h), byteWritten_shown _ _ _ _ _ _ _⟩
  gprReg := by
    intro s f q v len hq hb
    refine ⟨(s.withFlags f).storeCell (s.gprBAt (gprOfCode q)) v, ?_, byteWritten_store _ _ _ _ _⟩
    show State.regByteStored (s.withFlags f) q v = _
    unfold State.regByteStored
    rw [if_pos hq, if_pos (by exact hb)]
    rfl
  readBank h := (byteIn_sameBank h).bank
  regBank h := (regByte_sameBank h).bank
  step := rfl
  within := rfl
  open_ := rfl

end Sys2Proof.Machine
end

