-- ==== Sys2Proof/Laws/Forms.lean ====
section
/-! SUPPORT. What each operand form does, once for both widths: the state it leaves where its operands can be accessed. -/
namespace Sys2Proof.Machine

theorem flags_bank {s : State} {f : Flags} (h : s.bank = true) : (s.withFlags f).bank = true := h

/-- The two-operand ALU operation ends as its write ends. -/
theorem aluStep_done {w : Nat} {f : Alu w} {op2 op1 : Act (BitVec w)} {wr : BitVec w → Act Unit} {s s1 s2 t : State}
    {a b : BitVec w} (h2 : op2 s = .ok (b, s1)) (h1 : op1 s1 = .ok (a, s2))
    (hw : wr (f s2.core.psw a b).1 (s2.withFlags (f s2.core.psw a b).2) = .ok ((), t)) (len : Nat) :
    (aluStep f op2 op1 wr >>= fun _ => next len) s = .ok ((), t.advance len) := by
  rw [Act.bind_ok (t := t) (v := ())]
  · rfl
  · rw [aluStep_run h2 h1]; exact hw

/-- A move ends as its write ends. -/
theorem movPlain_done {w : Nat} {src : Act (BitVec w)} {wr : BitVec w → Act Unit} {s s1 t : State} {v : BitVec w}
    (h : src s = .ok (v, s1)) (hw : wr v (s1.withFlags (moveFlags s1.core.psw v)) = .ok ((), t)) (len : Nat) :
    movPlain src wr len s = .ok ((), t.advance len) := by
  unfold movPlain
  rw [Act.bind_ok (t := t) (v := ())]
  · rfl
  · rw [moveStep_run h]; exact hw

theorem bump_bank {s : State} {p : Gpr} {d : Word} (h : s.bank = true) : (s.bump p d).bank = true := h

theorem stepGpr_run {s : State} (p : Gpr) (d : Word) (h : s.bank = true) :
    stepGpr p d s = .ok ((), s.bump p d) := by
  unfold stepGpr; rw [Act.bind_ok (readGpr_run p h)]; exact writeGpr_run _ _ h

theorem openPointer_run {s : State} (p : Gpr) (h : s.bank = true) :
    openPointer p s = .ok ((), s.storeWord (s.gprAt p) (Config.freeWord .pointerAlias s.free 1)) := by
  unfold openPointer openWord; rw [Act.look_bind]; exact writeGpr_run _ _ h

section Generic

variable {w : Nat} {W : Width w} {V : View w}

theorem readIndirect_at (M : Matches W V) {s t : State} {p : Gpr} {v : BitVec w} (hb : s.bank = true)
    (h : V.readAt s (s.gpr p) = some (v, t)) : readIndirect W p s = .ok (v, t) := by
  unfold readIndirect; rw [Act.bind_ok (readGpr_run p hb)]; exact M.readMem h

theorem readPostInc_at (M : Matches W V) {s t : State} {p : Gpr} {v : BitVec w} (hb : s.bank = true)
    (h : V.readAt s (s.gpr p) = some (v, t)) : readPostInc W p s = .ok (v, t.bump p V.step) := by
  unfold readPostInc
  rw [Act.bind_ok (readIndirect_at M hb h), Act.bind_ok (stepGpr_run p W.step (by rw [M.readBank h]; exact hb)), M.step]
  rfl

theorem writeIndirect_at (M : Matches W V) {s u t : State} {p : Gpr} {v : BitVec w} {f : Flags}
    (hu : u = s.withFlags f) (hb : s.bank = true) (h : V.stored u (s.gpr p) v = some t) :
    writeIndirect W p v u = .ok ((), t) := by
  subst hu
  unfold writeIndirect; rw [Act.bind_ok (readGpr_run p (flags_bank hb))]; exact M.writeMem h

/-! ## ALU forms -/

theorem aluRR_done (M : Matches W V) (f : Alu w) {s : State} (rn rm : Gpr) (h : s.bank = true) :
    ∃ t, aluRR W f rn rm s = .ok ((), t) ∧ V.Written s t (V.gprAt s rn) (f s.core.psw (V.gpr s rn) (V.gpr s rm)).1
      (f s.core.psw (V.gpr s rn) (V.gpr s rm)).2 2 := by
  obtain ⟨t, ht, hw⟩ := M.writeGpr (u := s.withFlags (f s.core.psw (V.gpr s rn) (V.gpr s rm)).2) rn
    (f s.core.psw (V.gpr s rn) (V.gpr s rm)).1 2 rfl h
  exact ⟨_, aluStep_done (M.readGpr rm h) (M.readGpr rn h) ht 2, hw⟩

theorem aluR3_done (M : Matches W V) (f : Alu w) {s : State} (rn : Gpr) (d : BitVec 3) (h : s.bank = true) :
    ∃ t, aluR3 W f rn d s = .ok ((), t) ∧ V.Written s t (V.gprAt s rn) (f s.core.psw (V.gpr s rn) (d.setWidth w)).1
      (f s.core.psw (V.gpr s rn) (d.setWidth w)).2 2 := by
  obtain ⟨t, ht, hw⟩ := M.writeGpr (u := s.withFlags (f s.core.psw (V.gpr s rn) (d.setWidth w)).2) rn
    (f s.core.psw (V.gpr s rn) (d.setWidth w)).1 2 rfl h
  exact ⟨_, aluStep_done (op2 := pure (d.setWidth w)) rfl (M.readGpr rn h) ht 2, hw⟩

theorem aluRI_done (M : Matches W V) (f : Alu w) {s u : State} (rn : Gpr) (ri : BitVec 2) {b : BitVec w}
    (h : s.bank = true) (hr : V.readAt s (s.gpr (pointerOf ri)) = some (b, u)) :
    ∃ t, aluRI W f rn ri s = .ok ((), t) ∧ V.Written u t (V.gprAt u rn) (f u.core.psw (V.gpr u rn) b).1
      (f u.core.psw (V.gpr u rn) b).2 2 := by
  have hu : u.bank = true := by rw [M.readBank hr]; exact h
  obtain ⟨t, ht, hw⟩ := M.writeGpr (u := u.withFlags (f u.core.psw (V.gpr u rn) b).2) rn
    (f u.core.psw (V.gpr u rn) b).1 2 rfl hu
  exact ⟨_, aluStep_done (readIndirect_at M h hr) (M.readGpr rn hu) ht 2, hw⟩

theorem aluRIP_done (M : Matches W V) (f : Alu w) {s r : State} (rn : Gpr) (ri : BitVec 2) {b : BitVec w}
    (h : s.bank = true) (hr : V.readAt s (s.gpr (pointerOf ri)) = some (b, r)) :
    (V.within rn (pointerOf ri) = false → ∃ t, aluRIP W f rn ri s = .ok ((), t) ∧
      V.Written (r.bump (pointerOf ri) V.step) t (V.gprAt (r.bump (pointerOf ri) V.step) rn)
        (f r.core.psw (V.gpr (r.bump (pointerOf ri) V.step) rn) b).1
        (f r.core.psw (V.gpr (r.bump (pointerOf ri) V.step) rn) b).2 2) ∧
    (V.within rn (pointerOf ri) = true → ∃ t, aluRIP W f rn ri s = .ok ((), t) ∧
      WordWritten (r.bump (pointerOf ri) V.step) t (r.gprAt (pointerOf ri)) (Config.freeWord .pointerAlias r.free 1)
        (f r.core.psw (V.aliased (r.bump (pointerOf ri) V.step)) b).2 2) := by
  have hu : (r.bump (pointerOf ri) V.step).bank = true := by rw [bump_bank]; rw [M.readBank hr]; exact h
  constructor
  · intro hn
    obtain ⟨t, ht, hw⟩ := M.writeGpr
      (u := (r.bump (pointerOf ri) V.step).withFlags (f r.core.psw (V.gpr (r.bump (pointerOf ri) V.step) rn) b).2) rn
      (f r.core.psw (V.gpr (r.bump (pointerOf ri) V.step) rn) b).1 2 rfl hu
    refine ⟨_, ?_, hw⟩
    unfold aluRIP
    simp only [M.within, hn, Bool.false_eq_true, if_false]
    exact aluStep_done (readPostInc_at M h hr) (M.readGpr rn hu) ht 2
  · intro hn
    refine ⟨_, ?_, wordWritten_store _ _ _ _ _⟩
    unfold aluRIP
    simp only [M.within, hn, if_true]
    exact aluStep_done (readPostInc_at M h hr) M.open_ (openPointer_run _ (flags_bank hu)) 2

theorem aluWriteReg_run (M : Matches W V) {s t : State} {c : SpCheck} {q : Byte} {v : BitVec w}
    (h : V.regStored s q v = some t) : aluWriteReg W c q v s = .ok ((), t.afterReg q (some c)) := by
  unfold aluWriteReg
  rw [Act.bind_ok (M.writeReg h)]; rfl

theorem aluWriteMem_run (M : Matches W V) {s t : State} {c : SpCheck} {a : Word} {v : BitVec w}
    (h : V.stored s a v = some t) : aluWriteMem W c a v s = .ok ((), t.afterMem s (some c) w a) := by
  unfold aluWriteMem
  rw [Act.look_bind, Act.bind_ok (M.writeMem h)]; rfl

/-- Nothing follows the write of a GPR. -/
theorem afterReg_gpr {s : State} {q : Byte} (h : isGprCode q = true) (c : Option SpCheck) : s.afterReg q c = s := by
  unfold State.afterReg State.aluReg State.regIsSp
  cases c <;> simp [h]

/-- The address of SP names a register. -/
theorem areaOf_sp (d : Device) (m : BusMap) : areaOf d m 0x00FE12#24 = .sfr Sfr.sp := rfl

/-- Nothing follows the write of plain memory. -/
theorem afterMem_plain {s u : State} {a : Word} {k n : Nat} (h : u.writeCell a = some k) (c : Option SpCheck) :
    s.afterMem u c n a = s := by
  have hp := (cellAt_area (writableAt_plain h)).1
  have hs : u.memSfr n a = none := by
    unfold State.memSfr
    split
    · rename_i r hr; exact absurd hr (hp r)
    · rfl
  have hq : u.memIsSp a = false := by
    unfold State.memIsSp
    refine beq_eq_false_iff_ne.mpr fun he => hp Sfr.sp ?_
    unfold State.areaAt
    rw [he]; exact areaOf_sp _ _
  unfold State.afterMem State.aluMem
  cases c <;> simp [hs, hq]

/-- A computation that ends with a `reg` destination. -/
theorem regDone_of (M : Matches W V) {act : Act Unit} {i : Instr} {s u : State} {q : Byte} {v : BitVec w} {f : Flags}
    {c : Option SpCheck} {len : Nat} (hi : exec i s = act.toOutcome s)
    (h : ∀ t, V.regStored (u.withFlags f) q v = some t → act s = .ok ((), (t.afterReg q c).advance len)) :
    RegDone V i s u q v f c len := by
  constructor
  · intro hq hb
    obtain ⟨t, ht, hw⟩ := M.gprReg (f := f) v len hq hb
    refine ⟨_, by rw [hi]; exact Act.toOutcome_ok (h t ht), ?_⟩
    rw [afterReg_gpr hq]
    exact hw
  · intro t ht
    rw [hi]; exact Act.toOutcome_ok (h t ht)

/-- A computation that ends with a destination in memory. -/
theorem memDone_of (M : Matches W V) (hv : ∀ s a k, V.cell s a = some k → s.writeCell a = some k) {act : Act Unit}
    {i : Instr} {s u : State} {a : Word} {v : BitVec w} {f : Flags} {c : Option SpCheck}
    {len : Nat} (hi : exec i s = act.toOutcome s)
    (h : ∀ t, V.stored (u.withFlags f) a v = some t →
      act s = .ok ((), (t.afterMem (u.withFlags f) c w a).advance len)) :
    MemDone V i s u a v f c len := by
  constructor
  · intro k hk
    obtain ⟨t, ht, hw⟩ := M.cell (f := f) v len hk
    refine ⟨_, by rw [hi]; exact Act.toOutcome_ok (h t ht), ?_⟩
    rw [afterMem_plain (u := u.withFlags f) (k := k) (show u.writeCell a = some k from hv u a k hk)]
    exact hw
  · intro t ht
    rw [hi]; exact Act.toOutcome_ok (h t ht)

theorem aluRegImm_done (M : Matches W V) (f : Alu w) (c : SpCheck) {s u t : State} {q : Byte} (d : BitVec w)
    {a : BitVec w} (h : V.regAt s q = some (a, u))
    (ht : V.regStored (u.withFlags (f u.core.psw a d).2) q (f u.core.psw a d).1 = some t) :
    aluRegImm W f c q d s = .ok ((), (t.afterReg q (some c)).advance 4) :=
  aluStep_done (op2 := pure d) rfl (M.readReg h) (aluWriteReg_run M ht) 4

theorem aluRegMem_done (M : Matches W V) (f : Alu w) (c : SpCheck) {s r u t : State} {q : Byte} {m : Word}
    {a b : BitVec w} (hm : V.readAt s m = some (b, r)) (hq : V.regAt r q = some (a, u))
    (ht : V.regStored (u.withFlags (f u.core.psw a b).2) q (f u.core.psw a b).1 = some t) :
    aluRegMem W f c q m s = .ok ((), (t.afterReg q (some c)).advance 4) :=
  aluStep_done (M.readMem hm) (M.readReg hq) (aluWriteReg_run M ht) 4

theorem aluMemReg_done (M : Matches W V) (f : Alu w) (c : SpCheck) {s r u t : State} {q : Byte} {m : Word}
    {a b : BitVec w} (hq : V.regAt s q = some (b, r)) (hm : V.readAt r m = some (a, u))
    (ht : V.stored (u.withFlags (f u.core.psw a b).2) m (f u.core.psw a b).1 = some t) :
    aluMemReg W f c m q s =
      .ok ((), (t.afterMem (u.withFlags (f u.core.psw a b).2) (some c) w m).advance 4) :=
  aluStep_done (M.readReg hq) (M.readMem hm) (aluWriteMem_run M ht) 4

/-! ## Comparisons -/

theorem cmpStep_done {op2 op1 : Act (BitVec w)} {s s1 s2 : State} {a b : BitVec w} (h2 : op2 s = .ok (b, s1))
    (h1 : op1 s1 = .ok (a, s2)) (len : Nat) :
    ∃ t, (cmpStep op2 op1 >>= fun _ => next len) s = .ok ((), t) ∧ FlagsWritten s2 t (cmpFlags a b) len :=
  ⟨_, aluStep_done (f := aluSub) (wr := fun _ => pure ()) h2 h1 rfl len, flagsWritten_advance _ _ _⟩

theorem cmpRIP_done (M : Matches W V) {s r : State} (rn : Gpr) (ri : BitVec 2) {b : BitVec w}
    (h : s.bank = true) (hr : V.readAt s (s.gpr (pointerOf ri)) = some (b, r)) :
    ∃ t, cmpRIP W rn ri s = .ok ((), t) ∧ FlagsWritten (r.bump (pointerOf ri) V.step) t
      (cmpFlags (if V.within rn (pointerOf ri) then V.aliased (r.bump (pointerOf ri) V.step)
        else V.gpr (r.bump (pointerOf ri) V.step) rn) b) 2 := by
  have hu : (r.bump (pointerOf ri) V.step).bank = true := by rw [bump_bank]; rw [M.readBank hr]; exact h
  refine cmpStep_done (readPostInc_at M h hr) ?_ 2
  rw [M.within]
  by_cases hn : V.within rn (pointerOf ri) = true
  · simp only [hn, if_true]; exact M.open_
  · simp only [hn]; exact M.readGpr rn hu

theorem cmpStepGpr_done {s u : State} {rn : Gpr} {op2 : Act Word} {b : Word} (d : Word) (len : Nat)
    (h : u.bank = true) (h2 : op2 s = .ok (b, u)) :
    ∃ t, cmpStepGpr rn op2 d len s = .ok ((), t) ∧
      WordWritten u t (u.gprAt rn) (u.gpr rn + d) (cmpFlags (u.gpr rn) b) len := by
  refine ⟨_, ?_, wordWritten_store _ _ _ _ _⟩
  unfold cmpStepGpr
  rw [Act.bind_ok (t := u.withFlags (cmpFlags (u.gpr rn) b)) (v := ())]
  · rw [Act.bind_ok (stepGpr_run rn d (flags_bank h))]; rfl
  · rw [aluStep_run h2 (readGpr_run rn h)]; rfl

/-! ## One operand, shifts -/

theorem unaryGpr_done (M : Matches W V) (f : BitVec w → BitVec w × Flags) {s : State} (rn : Gpr) (h : s.bank = true) :
    ∃ t, unaryGpr W f rn s = .ok ((), t) ∧
      V.Written s t (V.gprAt s rn) (f (V.gpr s rn)).1 (f (V.gpr s rn)).2 2 := by
  obtain ⟨t, ht, hw⟩ := M.writeGpr (u := s.withFlags (f (V.gpr s rn)).2) rn (f (V.gpr s rn)).1 2 rfl h
  refine ⟨_, ?_, hw⟩
  unfold unaryGpr
  rw [Act.bind_ok (M.readGpr rn h), Act.bind_ok (setFlags_run _ _), Act.bind_ok ht]
  rfl

theorem shiftGpr_done (f : Shift) {s : State} (rn : Gpr) {count : Act (BitVec 4)} {k : BitVec 4} (h : s.bank = true)
    (hc : count s = .ok (k, s)) :
    ∃ t, shiftGpr f rn count s = .ok ((), t) ∧
      WordWritten s t (s.gprAt rn) (f (s.gpr rn) k.toNat).1 (f (s.gpr rn) k.toNat).2 2 := by
  refine ⟨_, ?_, wordWritten_store _ _ _ _ _⟩
  unfold shiftGpr
  rw [Act.bind_ok hc, Act.bind_ok (readGpr_run rn h), Act.bind_ok (setFlags_run _ _),
    Act.bind_ok (writeGpr_run rn _ (flags_bank h))]
  rfl

theorem shiftCount_run {s : State} (rm : Gpr) (h : s.bank = true) :
    shiftCount rm s = .ok ((s.gpr rm).extractLsb' 0 4, s) := by
  unfold shiftCount; rw [Act.bind_ok (readGpr_run rm h)]; rfl

/-! ## Moves -/

theorem movGpr_done (M : Matches W V) {src : Act (BitVec w)} {s u : State} {rn : Gpr} {v : BitVec w} (len : Nat)
    (h : src s = .ok (v, u)) (hb : u.bank = true) :
    ∃ t, movPlain src (W.writeGpr rn) len s = .ok ((), t) ∧
      V.Written u t (V.gprAt u rn) v (moveFlags u.core.psw v) len := by
  obtain ⟨t, ht, hw⟩ := M.writeGpr (u := u.withFlags (moveFlags u.core.psw v)) rn v len rfl hb
  exact ⟨_, movPlain_done h ht len, hw⟩

theorem movRIP_done (M : Matches W V) {s r : State} (rn rm : Gpr) {v : BitVec w} (h : s.bank = true)
    (hr : V.readAt s (s.gpr rm) = some (v, r)) :
    (V.within rn rm = false → ∃ t, movRIP W rn rm s = .ok ((), t) ∧
      V.Written (r.bump rm V.step) t (V.gprAt (r.bump rm V.step) rn) v (moveFlags r.core.psw v) 2) ∧
    (V.within rn rm = true → ∃ t, movRIP W rn rm s = .ok ((), t) ∧
      WordWritten (r.bump rm V.step) t (r.gprAt rm) (Config.freeWord .pointerAlias r.free 1)
        (moveFlags r.core.psw v) 2) := by
  have hu : (r.bump rm V.step).bank = true := by rw [bump_bank]; rw [M.readBank hr]; exact h
  constructor
  · intro hn
    unfold movRIP
    simp only [M.within, hn, Bool.false_eq_true, if_false]
    exact movGpr_done M 2 (readPostInc_at M h hr) hu
  · intro hn
    refine ⟨_, ?_, wordWritten_store _ _ _ _ _⟩
    unfold movRIP
    simp only [M.within, hn, if_true]
    exact movPlain_done (readPostInc_at M h hr) (openPointer_run _ (flags_bank hu)) 2

theorem movDR_done (M : Matches W V) {s t : State} (rm rn : Gpr) (h : s.bank = true)
    (ht : V.stored ((s.bump rm (-V.step)).withFlags (moveFlags s.core.psw (if V.within rn rm then
      V.aliased (s.bump rm (-V.step)) else V.gpr (s.bump rm (-V.step)) rn))) ((s.bump rm (-V.step)).gpr rm)
      (if V.within rn rm then V.aliased (s.bump rm (-V.step)) else V.gpr (s.bump rm (-V.step)) rn) = some t) :
    movDR W rm rn s = .ok ((), t.advance 2) := by
  unfold movDR
  rw [Act.bind_ok (stepGpr_run rm _ h), M.step, M.within]
  by_cases hn : V.within rn rm = true
  · simp only [hn, if_true] at ht ⊢
    exact movPlain_done M.open_ (writeIndirect_at M rfl (bump_bank h) ht) 2
  · simp only [hn] at ht ⊢
    exact movPlain_done (M.readGpr rn (bump_bank h)) (writeIndirect_at M rfl (bump_bank h) ht) 2

theorem movIPI_done (M : Matches W V) {s u x : State} (rn rm : Gpr) {v : BitVec w} (h : s.bank = true)
    (hr : V.readAt s (s.gpr rm) = some (v, u))
    (hx : V.stored (u.withFlags (moveFlags u.core.psw v)) (u.gpr rn) v = some x) (hxb : x.bank = true) :
    movIPI W rn rm s = .ok ((), (x.bump rn V.step).advance 2) := by
  have hu : u.bank = true := by rw [M.readBank hr]; exact h
  unfold movIPI
  rw [Act.bind_ok (t := x) (v := ())]
  · rw [Act.bind_ok (stepGpr_run rn W.step hxb), M.step]; rfl
  · rw [moveStep_run (readIndirect_at M h hr)]; exact writeIndirect_at M rfl hu hx

theorem moveExtend_done {signed : Bool} {src : Act Byte} {wr : Word → Act Unit} {s u t : State} {b : Byte} (len : Nat)
    (h : src s = .ok (b, u))
    (hw : wr (if signed then b.signExtend 16 else b.setWidth 16)
      (u.withFlags (if signed then moveSignFlags u.core.psw b else moveZeroFlags u.core.psw b)) = .ok ((), t)) :
    moveExtend signed src wr len s = .ok ((), t.advance len) := by
  unfold moveExtend
  rw [Act.bind_ok h, Act.look_bind, Act.bind_ok (setFlags_run _ _), Act.bind_ok hw]
  rfl

end Generic

/-! ## Bit operands -/

/-- A bit operand that can be read names a location, and the read keeps the register bank. -/
theorem readBit_at {s t : State} {b : Byte} {v : Word} (h : s.bitWord b = some (v, t)) :
    ∃ l, bitLoc b s = .ok (l, s) ∧ readBitLoc l s = .ok (v, t) ∧ SameBank s t ∧
      (∀ u w named x, SameBank t u → u.bitStored b w named = some x → writeBitLoc l w named u = .ok ((), x)) := by
  unfold State.bitWord at h
  unfold bitLoc
  by_cases hl : b.toNat < 0x80
  · rw [if_pos (Or.inl hl)] at h
    unfold State.bitCell at h
    rw [if_pos hl] at h
    cases h
    refine ⟨_, by rw [if_pos hl]; rfl, rfl, SameBank.refl _, fun u w named x hu hx => ?_⟩
    unfold State.bitStored State.bitCell at hx
    rw [if_pos (Or.inl hl), if_pos hl] at hx
    cases hx
    rfl
  · by_cases hg : isGprCode b = true
    · rw [if_pos (Or.inr hg)] at h
      unfold State.bitCell at h
      rw [if_neg hl, if_pos hg] at h
      by_cases hb : s.bank = true
      · rw [if_pos hb] at h
        cases h
        refine ⟨.gpr (gprOfCode b), by rw [if_neg hl, if_pos hg]; rfl, readGpr_run (gprOfCode b) hb, SameBank.refl _, fun u w named x hu hx => ?_⟩
        unfold State.bitStored State.bitCell at hx
        have hub : u.bank = true := by rw [hu.bank]; exact hb
        rw [if_pos (Or.inr hg), if_neg hl, if_pos hg, if_pos hub] at hx
        cases hx
        exact writeGpr_run _ _ hub
      · rw [if_neg hb] at h; cases h
    · rw [if_neg (not_or.mpr ⟨hl, hg⟩)] at h
      by_cases hp : (s.regNum b).present = true
      · rw [if_pos hp] at h
        cases h
        refine ⟨.sfr (s.regNum b), by rw [if_neg hl, if_neg hg]; rfl, readSfr_run hp, afterSfrRead_sameBank _ _,
          fun u w named x hu hx => ?_⟩
        have hr : u.regNum b = s.regNum b := by
          rw [hu.regNum]; exact (afterSfrRead_sameBank _ _).regNum b
        unfold State.bitStored at hx
        rw [if_neg (not_or.mpr ⟨hl, hg⟩)] at hx
        dsimp only at hx
        rw [hr] at hx
        show writeBitLoc (.sfr (s.regNum b)) w named u = _
        unfold writeBitLoc
        by_cases hq : ((s.regNum b).present && (u.sfrRefusal (s.regNum b)).isNone) = true
        · rw [if_pos hq] at hx
          cases hx
          rw [Bool.and_eq_true, Option.isNone_iff_eq_none] at hq
          dsimp only
          rw [Act.look_bind, Act.bind_ok (writeSfrBits_run hp hq.2)]
          rfl
        · rw [if_neg hq] at hx; cases hx
      · rw [if_neg hp] at h; cases h

theorem bitCell_gprBank {s : State} {b : Byte} {k : Nat} (h : s.bitCell b = some k) (v named : Word) :
    s.bitStored b v named = some (s.storeWord k v) := by
  unfold State.bitStored
  by_cases hl : b.toNat < 0x80
  · rw [if_pos (Or.inl hl), h]; rfl
  · by_cases hg : isGprCode b = true
    · rw [if_pos (Or.inr hg), h]; rfl
    · unfold State.bitCell at h
      rw [if_neg hl, if_neg hg] at h
      cases h

theorem withFlags_sameBank (s : State) (f : Flags) : SameBank s (s.withFlags f) := ⟨rfl, rfl, rfl, rfl, rfl, rfl⟩

theorem withFlags_bitCell (s : State) (f : Flags) (b : Byte) : (s.withFlags f).bitCell b = s.bitCell b := by
  unfold State.bitCell
  rw [State.withFlags_bank, State.withFlags_gprAt]

/-- A computation that ends with the write-back of a bit operand. -/
theorem bitDone_of {act : Act Unit} {i : Instr} {s u : State} {b : Byte} {v named : Word} {f : Flags} {len : Nat}
    (hi : exec i s = act.toOutcome s)
    (h : ∀ t, (u.withFlags f).bitStored b v named = some t → act s = .ok ((), t.advance len)) :
    BitDone i s u b v named f len := by
  constructor
  · intro k hk
    have hs : (u.withFlags f).bitStored b v named = some ((u.withFlags f).storeWord k v) :=
      bitCell_gprBank (by rw [withFlags_bitCell]; exact hk) v named
    exact ⟨((u.withFlags f).storeWord k v).advance len, by rw [hi]; exact Act.toOutcome_ok (h _ hs),
      wordWritten_store u k v f len⟩
  · intro t ht
    rw [hi]; exact Act.toOutcome_ok (h t ht)

theorem bitAssign_done {s u t : State} {b : Byte} (q : BitVec 4) (v : Bool) {w : Word}
    (h : s.bitWord b = some (w, u))
    (ht : (u.withFlags (bitFlags (wbit w q.toNat))).bitStored b (wset w q.toNat v) (bitMask q.toNat) = some t) :
    bitAssign b q v s = .ok ((), t.advance 2) := by
  obtain ⟨l, h1, h2, _, h3⟩ := readBit_at h
  unfold bitAssign
  rw [Act.bind_ok h1, Act.bind_ok h2, Act.bind_ok (setFlags_run _ _),
    Act.bind_ok (h3 _ _ _ _ (withFlags_sameBank _ _) ht)]
  rfl

theorem bitField_done {s u t : State} {b : Byte} (mask data : Word) {w : Word} (h : s.bitWord b = some (w, u))
    (ht : (u.withFlags (fieldFlags ((w &&& ~~~mask) ||| data))).bitStored b ((w &&& ~~~mask) ||| data) (mask ||| data) =
      some t) : bitField b mask data s = .ok ((), t.advance 4) := by
  obtain ⟨l, h1, h2, _, h3⟩ := readBit_at h
  unfold bitField
  rw [Act.bind_ok h1, Act.bind_ok h2, Act.bind_ok (setFlags_run _ _),
    Act.bind_ok (h3 _ _ _ _ (withFlags_sameBank _ _) ht)]
  rfl

end Sys2Proof.Machine
end

