-- ==== Sys2Proof/Laws/Control.lean ====
section
/-! SUPPORT. What the bit, branch, call and stack operations do, from their parts. -/
namespace Sys2Proof.Machine

/-! ## Bits -/

/-- A set bit reads back; the others are as they were. -/
theorem wset_getLsbD (w : Word) (j : Nat) (b : Bool) (i : Nat) (hi : i < 16) :
    (wset w j b).getLsbD i = if i = j then b else w.getLsbD i := by
  unfold wset bitMask
  cases b <;> simp only [if_true, Bool.false_eq_true, if_false, BitVec.getLsbD_or, BitVec.getLsbD_and, BitVec.getLsbD_not, BitVec.getLsbD_shiftLeft, BitVec.getLsbD_one, hi, decide_true, Bool.true_and]
  all_goals by_cases h : i = j
  all_goals first | (subst h; simp) | (simp [h]; omega)

/-! ## Mappings and the fetch -/

/-- The area of an address does not depend on SGTDIS. -/
theorem areaOf_sgtdis (dev : Device) (m : BusMap) (b : Bool) (a : Addr) :
    areaOf dev { m with syscon := wset m.syscon 11 b } a = areaOf dev m a := by
  have h : ∀ i, i < 16 → i ≠ 11 → wbit (wset m.syscon 11 b) i = wbit m.syscon i := fun i hi hn => by
    unfold wbit; rw [wset_getLsbD _ _ _ _ hi, if_neg hn]
  unfold areaOf romAt
  rw [h 10 (by decide) (by decide), h 12 (by decide) (by decide), h 2 (by decide) (by decide)]
  rfl

/-- The segmentation bit of a change does not matter to the kinds of memory at an address. -/
theorem segment_kinds (dev : Device) (b : Bool) (c : MapChange) (a : Addr) : (c.segment b).kinds dev a = c.kinds dev a := by
  unfold MapChange.kinds MapChange.segment; rw [areaOf_sgtdis, areaOf_sgtdis]

/-- Nor to what the change alters. -/
theorem segment_alters (dev : Device) (b : Bool) (c : MapChange) (a : Addr) :
    (c.segment b).alters dev a = c.alters dev a := by
  unfold MapChange.alters MapChange.segment; rw [areaOf_sgtdis, areaOf_sgtdis]; rfl

/-- An absolute branch to an address closes the area of a change there. -/
theorem reach_closes (dev : Device) (b : Bool) (c : MapChange) (a : Addr) : (c.reach dev b a).open_ dev a = false := by
  have hk : (c.reach dev b a).kinds dev a = c.kinds dev a := segment_kinds dev b c a
  have ha : (c.reach dev b a).alters dev a = c.alters dev a := segment_alters dev b c a
  unfold MapChange.open_
  rw [hk, ha]
  have he : (c.reach dev b a).entered = if c.open_ dev a then c.kinds dev a :: c.entered else c.entered := rfl
  rw [he]
  cases h : c.open_ dev a with
  | true => simp
  | false => rw [if_neg (by simp)]; exact h

/-- After a branch to a vector every mapping that a fetch may use has the segmentation of the current one. -/
theorem vectored_sgtdis (s : State) : wbit s.vectored.fetchMap.syscon 11 = wbit s.core.syscon 11 := by
  have hm : ∀ m : BusMap, m ∈ s.vectored.busMap :: (s.vectored.sys.oldMaps.filter
      (fun c => s.vectored.mayFetchOld c s.vectored.core.ip)).map MapChange.old → wbit m.syscon 11 = wbit s.core.syscon 11 := by
    intro m h
    rcases List.mem_cons.mp h with rfl | h
    · rfl
    · obtain ⟨c, hc, rfl⟩ := List.mem_map.mp h
      obtain ⟨d, _, rfl⟩ := List.mem_map.mp (List.mem_filter.mp hc).1
      show (wset d.old.syscon 11 (wbit s.core.syscon 11)).getLsbD 11 = _
      rw [wset_getLsbD _ _ _ _ (by decide), if_pos rfl]
  unfold State.fetchMap
  split
  · rfl
  · rw [List.getD_eq_getElem?_getD]
    cases hg : (s.vectored.busMap :: List.map MapChange.old (s.vectored.sys.oldMaps.filter
      (fun c => s.vectored.mayFetchOld c s.vectored.core.ip)))[Config.freeNat Config.Point.fetchMap s.vectored.free 0]? with
    | none => rfl
    | some m => exact hm m (List.mem_of_getElem? hg)

/-! ## How far the fetches run -/

/-- A number of bytes is rounded up by one at most. -/
theorem wholeCycles_bounds (s : State) (m : BusMap) (n : Nat) : n ≤ s.wholeCycles m n ∧ s.wholeCycles m n ≤ n + 1 := by
  unfold State.wholeCycles; split <;> omega

/-- The fetches reach what is needed, never fall back, and run ahead to the end of `depth` instructions at most, but for
the last byte of a cycle (20_memory.md R154). -/
theorem fetchEnd_bounds (s : State) (m : BusMap) (need depth : Nat) :
    need ≤ s.fetchEnd m need depth ∧ s.fetchedAhead ≤ s.fetchEnd m need depth ∧
      s.fetchEnd m need depth ≤ max (max s.fetchedAhead need) (s.codeSpan m depth s.core.ip) + 1 := by
  have h := wholeCycles_bounds s m (max s.fetchedAhead need + Config.freeNat .prefetch s.free need %
    (s.codeSpan m depth s.core.ip - max s.fetchedAhead need + 1))
  have hm := Nat.mod_lt (Config.freeNat .prefetch s.free need) (show 0 < s.codeSpan m depth s.core.ip -
    max s.fetchedAhead need + 1 from Nat.succ_pos _)
  unfold State.fetchEnd
  dsimp only
  omega

/-- Where there is nothing to fetch ahead, the fetches stand where they must. -/
theorem fetchEnd_exact {s : State} {m : BusMap} {need depth : Nat}
    (h : s.codeSpan m depth s.core.ip ≤ max s.fetchedAhead need) (he : max s.fetchedAhead need % 2 = 0) :
    s.fetchEnd m need depth = max s.fetchedAhead need := by
  unfold State.fetchEnd State.wholeCycles
  dsimp only
  rw [Nat.sub_eq_zero_of_le h, Nat.mod_one, Nat.add_zero, he]
  rfl

/-- With all code fetched that can be, the lines stay as the last access left them (61_peripherals_a.md R635). -/
theorem fetchUpTo_lines {s : State} {m : BusMap} {need depth : Nat} (hn : need ≤ s.fetchedAhead)
    (h : s.codeSpan m depth s.core.ip ≤ s.fetchedAhead) (he : s.fetchedAhead % 2 = 0) :
    (s.fetchUpTo m need depth).lines = s.bus.lines := by
  have hm : max s.fetchedAhead need = s.fetchedAhead := Nat.max_eq_left hn
  unfold State.fetchUpTo State.linesAfter
  dsimp only
  rw [fetchEnd_exact (by rw [hm]; exact h) (by rw [hm]; exact he), hm, Nat.sub_self]
  rfl

/-- Naming the source of code bytes changes nothing. -/
theorem codeSource_keeps {P : State → Prop} (m : BusMap) (a : Addr) (area : Area) : Keeps P (codeSource m a area) := by
  unfold codeSource
  repeat' first
    | exact Keeps.pure _
    | exact Keeps.look _
    | exact Keeps.refuse _
    | exact Keeps.faultAt _
    | exact Keeps.waitBus _
    | refine Keeps.bind ?_ fun _ => ?_
    | refine Keeps.ite ?_ ?_
    | split

/-- What the fetch of a code word keeps if the record of the bus does not matter to it. -/
theorem fetchWord_keeps {P : State → Prop} (hp : ∀ s m n, P s → P (s.noteFetch m n)) (m : BusMap) (a : Addr)
    (need : Nat) : Keeps P (fetchWord m a need) := by
  unfold fetchWord
  repeat' first
    | exact Keeps.pure _
    | exact Keeps.look _
    | exact Keeps.refuse _
    | exact codeSource_keeps _ _ _
    | exact Keeps.change fun s h => hp s m need h
    | refine Keeps.bind ?_ fun _ => ?_
    | refine Keeps.ite ?_ ?_
    | split

/-- What the fetch of an instruction keeps if the record of the bus does not matter to it. -/
theorem fetch_keeps {P : State → Prop} (hp : ∀ s m n, P s → P (s.noteFetch m n)) : Keeps P fetch := by
  unfold fetch
  repeat' first
    | exact Keeps.pure _
    | exact Keeps.look _
    | exact Keeps.refuse _
    | exact fetchWord_keeps hp _ _ _
    | refine Keeps.bind ?_ fun _ => ?_
    | refine Keeps.ite ?_ ?_
    | split

/-- A fetch changes nothing but the record of the bus. -/
theorem fetch_only_bus {s u : State} {b : Option (List Byte)} (h : fetch s = .ok (b, u)) : u = { s with bus := u.bus } :=
  fetch_keeps (P := fun u => u = { s with bus := u.bus }) (fun u m n hu => by rw [hu]; rfl) s b u rfl h

/-! ## Flags and completion -/

/-- Flags written back. -/
theorem withFlags_self (psw : Word) : withFlags psw (flagsOf psw) = psw := by
  apply BitVec.eq_of_getLsbD_eq
  intro i hi
  unfold withFlags flagsOf Flags.word wbit
  rw [BitVec.getLsbD_or, wset_getLsbD _ _ _ _ hi, wset_getLsbD _ _ _ _ hi, wset_getLsbD _ _ _ _ hi, wset_getLsbD _ _ _ _ hi, wset_getLsbD _ _ _ _ hi]
  interval_cases i <;> simp

/-- An instruction whose meaning is a computation that ends as claimed. -/
theorem completes {a : Act Unit} {i : Instr} {s : State} {P : State → Prop} (hi : exec i s = a.toOutcome s)
    (h : ∃ t, a s = .ok ((), t) ∧ P t) : ∃ t, exec i s = .next t ∧ P t := by
  obtain ⟨t, ht, hp⟩ := h
  exact ⟨t, by rw [hi]; exact Act.toOutcome_ok ht, hp⟩

/-- The same, from the run of the computation. -/
theorem completes_run {a : Act Unit} {i : Instr} {s t : State} {P : State → Prop} (hi : exec i s = a.toOutcome s)
    (h : a s = .ok ((), t)) (hp : P t) : ∃ t, exec i s = .next t ∧ P t :=
  ⟨t, by rw [hi]; exact Act.toOutcome_ok h, hp⟩

/-- Reading a bit operand leaves the program counter, CSP and SP. -/
theorem bitWord_core {s : State} {b : Byte} {w : Word} {u : State} (h : s.bitWord b = some (w, u)) :
    u.core.ip = s.core.ip ∧ u.core.csp = s.core.csp ∧ u.core.sp = s.core.sp := by
  unfold State.bitWord at h
  split at h
  · simp only [Option.map_eq_some_iff] at h; obtain ⟨k, _, hk⟩ := h; cases hk; exact ⟨rfl, rfl, rfl⟩
  · split at h
    · cases h
      unfold State.afterSfrRead
      split_ifs <;> first | exact ⟨rfl, rfl, rfl⟩ | (rw [(adcRead_sameCpu _ _).1]; exact ⟨rfl, rfl, rfl⟩)
    · cases h

/-- The location of a bit operand depends on the kind of the locked sequence only. -/
theorem bitLoc_ext {b : Byte} {s r : State} {l : BitLoc} (h : bitLoc b s = .ok (l, s)) (he : r.sys.ext = s.sys.ext) :
    bitLoc b r = .ok (l, r) := by
  unfold bitLoc at h ⊢
  split at h
  · rename_i hc; cases h; simp [hc]
  · rename_i hc
    simp only [hc, if_false]
    split at h
    · rename_i hg; cases h; simp [hg]
    · rename_i hg
      simp only [hg]
      unfold sfrOfCode at h ⊢
      rw [Act.look_bind] at h
      cases h
      simp [he]

/-- The two-bit instructions that write, from what their operands read as. -/
theorem bitPair_run {s r u t : State} {bz bq : Byte} {z q : BitVec 4} {ws wd : Word} {fl : Bool → Bool → Flags}
    {g : Bool → Bool → Bool} (h1 : s.bitWord bq = some (ws, r))
    (h2 : (if bz = bq then some (ws, r) else r.bitWord bz) = some (wd, u))
    (ht : (u.withFlags (fl (wbit wd z.toNat) (wbit ws q.toNat))).bitStored bz
      (wset wd z.toNat (g (wbit wd z.toNat) (wbit ws q.toNat))) (bitMask z.toNat) = some t) :
    bitPair bz z bq q fl (some g) s = .ok ((), t.advance 4) := by
  obtain ⟨lq, h3, h4, h5, h6⟩ := readBit_at h1
  unfold bitPair
  by_cases hb : bz = bq
  · subst hb
    simp only [if_true] at h2
    cases h2
    have h7 : bitLoc bz r = .ok (lq, r) := bitLoc_ext h3 h5.2.2.2.2.2
    rw [Act.bind_ok h3, Act.bind_ok h4, Act.bind_ok h7, if_pos rfl, Act.pure_bind']
    dsimp only
    rw [Act.bind_ok (setFlags_run _ _), Act.bind_ok (h6 _ _ _ _ (withFlags_sameBank _ _) ht)]
    rfl
  · simp only [hb, if_false] at h2
    obtain ⟨lz, h7, h8, h9, h10⟩ := readBit_at h2
    rw [Act.bind_ok h3, Act.bind_ok h4, Act.bind_ok h7, if_neg hb, Act.bind_ok h8]
    dsimp only
    rw [Act.bind_ok (setFlags_run _ _), Act.bind_ok (h10 _ _ _ _ (withFlags_sameBank _ _) ht)]
    rfl

/-- BCMP. -/
theorem bitPair_cmp_run {s r u : State} {bz bq : Byte} {z q : BitVec 4} {ws wd : Word} {fl : Bool → Bool → Flags}
    (h1 : s.bitWord bq = some (ws, r))
    (h2 : (if bz = bq then some (ws, r) else r.bitWord bz) = some (wd, u)) :
    bitPair bz z bq q fl none s =
      .ok ((), (u.withFlags (fl (wbit wd z.toNat) (wbit ws q.toNat))).advance 4) := by
  obtain ⟨lq, h3, h4, h5, h6⟩ := readBit_at h1
  unfold bitPair
  by_cases hb : bz = bq
  · subst hb
    simp only [if_true] at h2
    cases h2
    have h7 : bitLoc bz r = .ok (lq, r) := bitLoc_ext h3 h5.2.2.2.2.2
    rw [Act.bind_ok h3, Act.bind_ok h4, Act.bind_ok h7, if_pos rfl, Act.pure_bind']
    rfl
  · simp only [hb, if_false] at h2
    obtain ⟨lz, h7, h8, h9, h10⟩ := readBit_at h2
    rw [Act.bind_ok h3, Act.bind_ok h4, Act.bind_ok h7, if_neg hb, Act.bind_ok h8]
    rfl

/-- BMOV, BMOVN, BAND, BOR, BXOR. -/
theorem bitPair_done {fl : Bool → Bool → Flags} {g : Bool → Bool → Bool}
    {i : Byte → BitVec 4 → Byte → BitVec 4 → Instr}
    (hi : ∀ a b c d s, exec (i a b c d) s = (bitPair a b c d fl (some g)).toOutcome s) : BitPaired fl g i :=
  fun _ _ _ _ _ _ _ _ _ h1 h2 => bitDone_of (hi _ _ _ _ _) (fun _ ht => bitPair_run h1 h2 ht)

/-! ## Branches -/

/-- An instruction that only advances. -/
theorem passed_advance (s : State) (n : Nat) : Passed s (s.advance n) n :=
  ⟨rfl, rfl, State.blank_advance _ _, fun _ _ => rfl⟩

/-- A branch from a state `u` that shares with `s` all but IP, CSP and what the fetch remembers. -/
theorem branched_branch {s u : State} {csp : Byte} (ip : Word) (hc : u.core.csp = csp) (hs : u.core.sp = s.core.sp)
    (hp : u.core.psw = s.core.psw) (ht : u.core.tfr = s.core.tfr) (hm : u.mem = s.mem)
    (h : u.steady = s.steady) : Branched s (u.branch ip) csp ip := by
  unfold State.branch Branched branchFlags
  by_cases hw : wbit ip 0 = true
  · simp only [hw, if_true]
    refine ⟨rfl, hc, hs, hp, ?_, hm, h⟩
    show u.core.tfr ||| _ = _; rw [ht]
  · simp only [hw]
    refine ⟨rfl, hc, hs, hp, ?_, hm, h⟩
    show u.core.tfr = _; rw [ht]; simp

/-- A relative branch target. -/
theorem relTarget_eq (s : State) (len : Nat) (rel : Byte) :
    s.relTarget len rel = s.core.ip + BitVec.ofNat 16 len + BitVec.ofInt 16 (2 * rel.toInt) := by
  have h : (rel.signExtend 16 <<< 1 : Word) = BitVec.ofInt 16 (2 * rel.toInt) := by revert rel; decide
  unfold State.relTarget; rw [h]

/-- A taken cache jump. -/
theorem branched_cacheJump (s : State) (ip : Word) : Branched s ((s.fillCache ip).branch ip) s.core.csp ip := by
  refine branched_branch ip ?_ ?_ ?_ ?_ ?_ ?_ <;> (unfold State.fillCache; dsimp only; split <;> rfl)

/-! ## The stack -/

/-- What one push does. -/
theorem pushed_facts (s : State) (k : Nat) (v : Word) :
    (s.pushed k v).core.sp = s.spDown ∧ (s.pushed k v).mem = (s.storeWord k v).mem ∧
      (s.pushed k v).core.tfr = s.core.tfr ||| pushFlags s s.spDown ∧ (s.pushed k v).core.psw = s.core.psw ∧
      (s.pushed k v).core.ip = s.core.ip ∧ (s.pushed k v).core.csp = s.core.csp ∧
      (s.pushed k v).core.stkov = s.core.stkov ∧ (s.pushed k v).core.stkun = s.core.stkun ∧
      (s.pushed k v).effMap = s.effMap ∧ (s.pushed k v).steady = s.steady ∧
      (s.pushed k v).sys.treq = s.sys.treq ||| (pushFlags s s.spDown &&& ~~~s.core.tfr) := by
  unfold State.pushed pushFlags
  dsimp only
  by_cases h : s.spDown < s.core.stkov
  · simp only [h, if_true]; exact ⟨rfl, rfl, rfl, rfl, rfl, rfl, rfl, rfl, rfl, rfl, rfl⟩
  · simp only [h, if_false]; refine ⟨rfl, rfl, ?_, rfl, rfl, rfl, rfl, rfl, rfl, rfl, ?_⟩
    · show s.core.tfr = _; simp
    · show s.sys.treq = _; simp

/-- What one pop does. -/
theorem popped_facts (s : State) :
    s.popped.core.sp = s.spUp ∧ s.popped.mem = s.mem ∧ s.popped.core.tfr = s.core.tfr ||| popFlags s s.spUp ∧
      s.popped.core.psw = s.core.psw ∧ s.popped.core.ip = s.core.ip ∧ s.popped.core.csp = s.core.csp ∧
      s.popped.core.stkov = s.core.stkov ∧ s.popped.core.stkun = s.core.stkun ∧ s.popped.effMap = s.effMap ∧
      s.popped.steady = s.steady ∧ s.popped.effSp = s.spUp ∧
      s.popped.sys.treq = s.sys.treq ||| (popFlags s s.spUp &&& ~~~s.core.tfr) := by
  unfold State.popped popFlags State.spUp
  dsimp only
  by_cases h : s.core.stkun < stackNorm (s.effSp + 2)
  · simp only [h, if_true]; exact ⟨rfl, rfl, rfl, rfl, rfl, rfl, rfl, rfl, rfl, rfl, rfl, rfl⟩
  · simp only [h, if_false]; refine ⟨rfl, rfl, ?_, rfl, rfl, rfl, rfl, rfl, rfl, rfl, rfl, ?_⟩
    · show s.core.tfr = _; simp
    · show s.sys.treq = _; simp

/-- The stack lies where it did, as long as SYSCON does. -/
theorem stackAt_congr {s t : State} (h : t.effMap = s.effMap) (sp : Word) : t.stackAt sp = s.stackAt sp := by
  unfold State.stackAt; rw [h]

/-- SP as the hardware keeps it, as a number. -/
theorem stackNorm_toNat (v : Word) : (stackNorm v).toNat = 0xF000 + (v.toNat % 0x1000) / 2 * 2 := by
  have h : v &&& (0x0FFE : Word) = ((v.extractLsb' 1 11).setWidth 16) <<< 1 := by
    ext i hi; simp; interval_cases i <;> simp
  have h2 : (v &&& (0x0FFE : Word)).toNat = (v.toNat % 0x1000) / 2 * 2 := by
    rw [h]; simp [Nat.shiftLeft_eq, Nat.shiftRight_eq_div_pow]; omega
  have h3 : stackNorm v = 0xF000 + (v &&& (0x0FFE : Word)) := by
    unfold stackNorm
    exact (BitVec.add_eq_or_of_and_eq_zero _ _ (by ext i hi; simp; interval_cases i <;> simp)).symm
  rw [h3, BitVec.toNat_add, h2]; 
  show (0xF000 + _) % 65536 = _
  omega

/-- The stack address as a number. -/
theorem stackAddr_toNat {b : Nat} (hb : b = 9 ∨ b = 8 ∨ b = 7 ∨ b = 6 ∨ b = 10 ∨ b = 12) (sp : Word) :
    (stackAddr b sp).toNat = 0xFBFE / 2 ^ b * 2 ^ b + sp.toNat % 2 ^ b := by
  unfold stackAddr
  have h2 : (sp &&& BitVec.ofNat 16 (2 ^ b - 1)).toNat = sp.toNat % 2 ^ b := by
    rw [BitVec.toNat_and, BitVec.toNat_ofNat, Nat.mod_eq_of_lt, Nat.and_two_pow_sub_one_eq_mod]
    rcases hb with h | h | h | h | h | h <;> subst h <;> decide
  have h3 : (0xFBFE &&& ~~~(BitVec.ofNat 16 (2 ^ b - 1)) : Word).toNat = 2 ^ b * (0xFBFE / 2 ^ b) := by
    rcases hb with h | h | h | h | h | h <;> subst h <;> rfl
  rw [BitVec.toNat_or, h2, h3, ← Nat.two_pow_add_eq_or_of_lt (Nat.mod_lt _ (Nat.two_pow_pos _)), Nat.mul_comm]

/-- Two stack words one or two places apart lie in different cells. -/
theorem stackAt_ne {s : State} {sp d : Word} {k1 k2 : Nat} (h1 : s.stackAt sp = some k1)
    (h2 : s.stackAt (stackNorm (sp - d)) = some k2) (hs : stackNorm sp = sp) (hd : d = 2 ∨ d = 4) :
    k2 + 1 < k1 ∨ k1 + 1 < k2 := by
  unfold State.stackAt at h1 h2
  cases hb : stackBits (fieldNat s.effMap.syscon 13 3) with
  | none => rw [hb] at h1; cases h1
  | some b =>
    rw [hb] at h1 h2
    dsimp only at h1 h2
    split at h1 <;> cases h1
    split at h2 <;> cases h2
    rename_i r1 r2
    have hb' : b = 9 ∨ b = 8 ∨ b = 7 ∨ b = 6 ∨ b = 10 ∨ b = 12 := by
      unfold stackBits at hb; split at hb <;> simp_all
    unfold iramCell
    have key : (stackAddr b sp).toNat + 1 < (stackAddr b (stackNorm (sp - d))).toNat ∨
        (stackAddr b (stackNorm (sp - d))).toNat + 1 < (stackAddr b sp).toNat := by
      rw [stackAddr_toNat hb', stackAddr_toNat hb', stackNorm_toNat]
      have := stackNorm_toNat sp
      rw [hs] at this
      rw [BitVec.toNat_sub]
      have h4 : sp.toNat < 65536 := sp.isLt
      rcases hd with rfl | rfl <;> rcases hb' with h | h | h | h | h | h <;> subst h <;> simp <;> omega
    omega

theorem stackNorm_idem (v : Word) : stackNorm (stackNorm v) = stackNorm v := by
  unfold stackNorm; ext i hi; simp; interval_cases i <;> simp

theorem stackNorm_sub (v d : Word) (hd : d = 2) : stackNorm (stackNorm (v - d) - d) = stackNorm (v - d - d) := by
  apply BitVec.eq_of_toNat_eq
  subst hd
  rw [stackNorm_toNat, stackNorm_toNat, BitVec.toNat_sub, stackNorm_toNat, BitVec.toNat_sub, BitVec.toNat_sub]
  have h4 : v.toNat < 65536 := v.isLt
  simp; omega

/-- The cells of two pushes lie apart. -/
theorem push_cells {s : State} {k1 k2 : Nat} (h1 : s.stackAt s.spDown = some k1) (h2 : s.stackAt s.spDown2 = some k2) :
    k2 + 1 < k1 ∨ k1 + 1 < k2 :=
  stackAt_ne h1 h2 (stackNorm_idem _) (.inl rfl)

/-- The cells of three pushes lie apart. -/
theorem push_cells3 {s : State} {k1 k3 : Nat} (h1 : s.stackAt s.spDown = some k1) (h3 : s.stackAt s.spDown3 = some k3) :
    k3 + 1 < k1 ∨ k1 + 1 < k3 := by
  refine stackAt_ne (d := 4) h1 ?_ (stackNorm_idem _) (.inr rfl)
  have : s.spDown3 = stackNorm (s.spDown - 4) := by
    unfold State.spDown3 State.spDown2
    rw [stackNorm_sub _ _ rfl, BitVec.sub_sub]
    rfl
  rw [← this]; exact h3

/-- A word stored elsewhere leaves a word. -/
theorem storeWord_getWord_apart (s : State) {k j : Nat} (v : Word) (h : k + 1 < j ∨ j + 1 < k) :
    (s.storeWord k v).mem.getWord j = s.mem.getWord j := by
  unfold Memory.getWord
  rw [State.storeWord_get_other _ _ (by simp [wordCells]; omega), State.storeWord_get_other _ _ (by simp [wordCells]; omega)]

/-- A call pushes the return address and branches. -/
theorem called_branch {s u : State} {k : Nat} {ret : Word} {csp : Byte} (ip : Word) (hm : u.mem = (s.pushed k ret).mem)
    (hs : u.core.sp = (s.pushed k ret).core.sp) (hp : u.core.psw = s.core.psw) (ht : u.core.tfr = (s.pushed k ret).core.tfr)
    (hc : u.core.csp = csp) (h : u.steady = s.steady) : Called s (u.branch ip) k ret csp ip := by
  obtain ⟨b1, b2, b3, b4, b5, b6, b7⟩ := branched_branch (s := u) ip hc rfl rfl rfl rfl rfl
  obtain ⟨p1, p2, p3, p4, _⟩ := pushed_facts s k ret
  refine ⟨?_, ?_, b1, b2, ?_, ?_, ?_, ?_⟩
  · rw [b6, hm, p2]; exact State.storeWord_getWord _ _ _
  · rw [b3, hs, p1]
  · rw [b4, hp]
  · rw [b5, ht, p3]
  · intro c hc; rw [b6, hm, p2]; exact State.storeWord_get_other _ _ hc
  · rw [b7, h]

/-- What the claims about pushes read of a state. -/
theorem push_reads {s z : State} (hz : z.core = s.core) :
    z.spDown = s.spDown ∧ z.spDown2 = s.spDown2 ∧ z.spDown3 = s.spDown3 ∧ pushFlags z = pushFlags s := by
  have e : z.spDown = s.spDown := by unfold State.spDown; rw [hz]
  have e2 : z.spDown2 = s.spDown2 := by unfold State.spDown2; rw [e]
  refine ⟨e, e2, by unfold State.spDown3; rw [e2], ?_⟩
  funext x; unfold pushFlags; rw [hz]

/-- Two pushes. -/
theorem called2_branch {s z u : State} {k1 k2 : Nat} {a b : Word} {csp : Byte} {psw : Word} (ip : Word)
    (h1 : s.stackAt s.spDown = some k1) (h2 : s.stackAt s.spDown2 = some k2)
    (hm : u.mem = ((s.pushed k1 a).pushed k2 b).mem) (hs : u.core.sp = ((s.pushed k1 a).pushed k2 b).core.sp)
    (hp : u.core.psw = psw) (ht : u.core.tfr = ((s.pushed k1 a).pushed k2 b).core.tfr) (hc : u.core.csp = csp)
    (hz : z.core = s.core)
    (hzm : z.mem = s.mem) (h : u.steady = z.steady) : Called2 z (u.branch ip) k1 k2 a b csp ip psw := by
  obtain ⟨b1, b2, b3, b4, b5, b6, b7⟩ := branched_branch (s := u) ip hc rfl rfl rfl rfl rfl
  obtain ⟨p1, p2, p3, p4, p5, p6, p7, _⟩ := pushed_facts s k1 a
  obtain ⟨q1, q2, q3, q4, _⟩ := pushed_facts (s.pushed k1 a) k2 b
  have hd : (s.pushed k1 a).spDown = s.spDown2 := by unfold State.spDown2 State.spDown; rw [p1]; rfl
  have hf : pushFlags (s.pushed k1 a) s.spDown2 = pushFlags s s.spDown2 := by unfold pushFlags; rw [p7]
  have hk := push_cells h1 h2
  obtain ⟨z1, z2, z3, z4⟩ := push_reads hz
  unfold Called2
  rw [z1, z2, z4, hz, hzm]
  refine ⟨?_, ?_, ?_, b1, b2, ?_, ?_, ?_, ?_⟩
  · rw [b6, hm, q2, storeWord_getWord_apart _ _ hk, p2]; exact State.storeWord_getWord _ _ _
  · rw [b6, hm, q2]; exact State.storeWord_getWord _ _ _
  · rw [b3, hs, q1, hd]
  · rw [b4, hp]
  · rw [b5, ht, q3, p3, hd, hf]
  · intro c hc
    simp only [List.mem_append, not_or] at hc
    rw [b6, hm, q2, State.storeWord_get_other _ _ hc.2, p2, State.storeWord_get_other _ _ hc.1]
  · rw [b7, h]

/-- Three pushes. -/
theorem called3_branch {s z u : State} {k1 k2 k3 : Nat} {a b c : Word} {csp : Byte} {psw : Word} (ip : Word)
    (h1 : s.stackAt s.spDown = some k1) (h2 : s.stackAt s.spDown2 = some k2) (h3 : s.stackAt s.spDown3 = some k3)
    (hm : u.mem = (((s.pushed k1 a).pushed k2 b).pushed k3 c).mem)
    (hs : u.core.sp = (((s.pushed k1 a).pushed k2 b).pushed k3 c).core.sp)
    (hp : u.core.psw = psw) (ht : u.core.tfr = (((s.pushed k1 a).pushed k2 b).pushed k3 c).core.tfr)
    (hc : u.core.csp = csp) (hz : z.core = s.core)
    (hzm : z.mem = s.mem) (h : u.steady = z.steady) : Called3 z (u.branch ip) k1 k2 k3 a b c csp ip psw := by
  obtain ⟨b1, b2, b3, b4, b5, b6, b7⟩ := branched_branch (s := u) ip hc rfl rfl rfl rfl rfl
  obtain ⟨p1, p2, p3, p4, p5, p6, p7, _⟩ := pushed_facts s k1 a
  obtain ⟨q1, q2, q3, q4, q5, q6, q7, _⟩ := pushed_facts (s.pushed k1 a) k2 b
  obtain ⟨r1, r2, r3, r4, _⟩ := pushed_facts ((s.pushed k1 a).pushed k2 b) k3 c
  have hd : (s.pushed k1 a).spDown = s.spDown2 := by unfold State.spDown2 State.spDown; rw [p1]; rfl
  have he : ((s.pushed k1 a).pushed k2 b).spDown = s.spDown3 := by
    unfold State.spDown3; rw [← hd, ← q1]; rfl
  have hf : pushFlags (s.pushed k1 a) s.spDown2 = pushFlags s s.spDown2 := by unfold pushFlags; rw [p7]
  have hg : pushFlags ((s.pushed k1 a).pushed k2 b) s.spDown3 = pushFlags s s.spDown3 := by
    unfold pushFlags; rw [q7, p7]
  have hk := push_cells h1 h2
  have hk3 := push_cells3 h1 h3
  have hk2 : k3 + 1 < k2 ∨ k2 + 1 < k3 := stackAt_ne h2 h3 (stackNorm_idem _) (.inl rfl)
  obtain ⟨z1, z2, z3, z4⟩ := push_reads hz
  unfold Called3
  rw [z1, z2, z3, z4, hz, hzm]
  refine ⟨?_, ?_, ?_, ?_, b1, b2, ?_, ?_, ?_, ?_⟩
  · rw [b6, hm, r2, storeWord_getWord_apart _ _ hk3, q2, storeWord_getWord_apart _ _ hk, p2]
    exact State.storeWord_getWord _ _ _
  · rw [b6, hm, r2, storeWord_getWord_apart _ _ hk2, q2]; exact State.storeWord_getWord _ _ _
  · rw [b6, hm, r2]; exact State.storeWord_getWord _ _ _
  · rw [b3, hs, r1, he]
  · rw [b4, hp]
  · rw [b5, ht, r3, q3, p3, hd, hf, he, hg]
  · intro c hc
    simp only [List.mem_append, not_or] at hc
    rw [b6, hm, r2, State.storeWord_get_other _ _ hc.2, q2, State.storeWord_get_other _ _ hc.1.2, p2,
      State.storeWord_get_other _ _ hc.1.1]
  · rw [b7, h]

/-! ## Several pushes and pops -/

theorem pushed_steady (s : State) (k : Nat) (v : Word) : (s.pushed k v).steady = s.steady :=
  (pushed_facts s k v).2.2.2.2.2.2.2.2.2.1

theorem pushed_csp (s : State) (k : Nat) (v : Word) : (s.pushed k v).core.csp = s.core.csp :=
  (pushed_facts s k v).2.2.2.2.2.1

theorem pushed_ip (s : State) (k : Nat) (v : Word) : (s.pushed k v).core.ip = s.core.ip :=
  (pushed_facts s k v).2.2.2.2.1

theorem pushed_psw (s : State) (k : Nat) (v : Word) : (s.pushed k v).core.psw = s.core.psw :=
  (pushed_facts s k v).2.2.2.1

theorem pushed_stackAt (s : State) (k : Nat) (v sp : Word) : (s.pushed k v).stackAt sp = s.stackAt sp :=
  stackAt_congr (pushed_facts s k v).2.2.2.2.2.2.2.2.1 sp

theorem pushed_spDown (s : State) (k : Nat) (v : Word) : (s.pushed k v).spDown = s.spDown2 := by
  unfold State.spDown2 State.spDown; rw [(pushed_facts s k v).1]; rfl

theorem popped_stackAt (s : State) (sp : Word) : s.popped.stackAt sp = s.stackAt sp :=
  stackAt_congr (popped_facts s).2.2.2.2.2.2.2.2.1 sp

theorem popped_effSp (s : State) : s.popped.effSp = s.spUp := (popped_facts s).2.2.2.2.2.2.2.2.2.2.1

theorem popped_mem (s : State) : s.popped.mem = s.mem := (popped_facts s).2.1

theorem popped_steady (s : State) : s.popped.steady = s.steady := (popped_facts s).2.2.2.2.2.2.2.2.2.1

theorem popped_spUp (s : State) : s.popped.spUp = s.spUp2 := by
  unfold State.spUp2; rw [← popped_effSp s]; rfl

/-- The second pop of an instruction. -/
theorem pop2_run {s : State} {k : Nat} (h : s.stackAt s.spUp = some k) :
    pop s.popped = .ok (s.mem.getWord k, s.popped.popped) := by
  rw [pop_run (s := s.popped) (k := k) (by rw [popped_stackAt, popped_effSp]; exact h), popped_mem]

/-- The push of a return address. -/
theorem pushReturn_run {s : State} {k n : Nat} (h : s.stackAt s.spDown = some k) :
    pushReturn n s = .ok ((), s.pushed k (s.core.ip + BitVec.ofNat 16 n)) := by
  unfold pushReturn; rw [Act.look_bind]; exact push_run _ h

/-- What an entry does after its pushes: nothing but PSW, CSP and what the fetch remembers changes. -/
theorem entered_facts (s : State) (psw : Word) (clear : Bool) :
    (s.entered psw clear).mem = s.mem ∧ (s.entered psw clear).core.sp = s.core.sp ∧ (s.entered psw clear).core.psw = psw ∧
      (s.entered psw clear).core.tfr = s.core.tfr ∧ (s.entered psw clear).sys.treq = s.sys.treq ∧
      (s.entered psw clear).core.csp = (if clear then 0 else s.core.csp) ∧
      (s.entered psw clear).steady =
        { s.steady with sys := { s.steady.sys with hldenOnce := s.sys.hldenOnce || wbit psw 10 } } := by
  cases clear <;> exact ⟨rfl, rfl, rfl, rfl, rfl, rfl, rfl⟩

/-- The same where the state before it has the frame of `s`. -/
theorem entered_steady {s p : State} (psw : Word) (clear : Bool) (h : p.steady = s.steady) :
    (p.entered psw clear).steady = (s.setPsw psw).steady := by
  have hh := congrArg (fun x : State => x.sys.hldenOnce) h
  have hh : p.sys.hldenOnce = s.sys.hldenOnce := hh
  rw [(entered_facts p psw clear).2.2.2.2.2.2, h, hh]
  rfl

/-- The entry sequence with segmentation: three pushes, and segment 0. -/
theorem enter_segmented {s : State} {k1 k2 k3 : Nat} (n : Nat) (level : Option (BitVec 4)) (ret : Word) (mulip : Bool)
    (hseg : s.sgtdis = false) (h1 : s.stackAt s.spDown = some k1) (h2 : s.stackAt s.spDown2 = some k2)
    (h3 : s.stackAt s.spDown3 = some k3) :
    ∃ u : State, enter n level ret mulip s = .ok ((), u.branch (BitVec.ofNat 16 (4 * n))) ∧
      u.mem = (((s.pushed k1 s.core.psw).pushed k2 (s.core.csp.setWidth 16)).pushed k3 ret).mem ∧
      u.core.sp = (((s.pushed k1 s.core.psw).pushed k2 (s.core.csp.setWidth 16)).pushed k3 ret).core.sp ∧
      u.core.psw = entryPsw s.core.psw level mulip ∧
      u.core.tfr = (((s.pushed k1 s.core.psw).pushed k2 (s.core.csp.setWidth 16)).pushed k3 ret).core.tfr ∧
      u.sys.treq = (((s.pushed k1 s.core.psw).pushed k2 (s.core.csp.setWidth 16)).pushed k3 ret).sys.treq ∧
      u.core.csp = 0 ∧ u.steady = (s.setPsw (entryPsw s.core.psw level mulip)).steady := by
  have h3' : ((s.pushed k1 s.core.psw).pushed k2 (s.core.csp.setWidth 16)).stackAt
      ((s.pushed k1 s.core.psw).pushed k2 (s.core.csp.setWidth 16)).spDown = some k3 := by
    rw [pushed_stackAt, pushed_stackAt]
    have : ((s.pushed k1 s.core.psw).pushed k2 (s.core.csp.setWidth 16)).spDown = s.spDown3 := by
      unfold State.spDown3; rw [← pushed_spDown s k1 s.core.psw]; unfold State.spDown; rw [(pushed_facts _ _ _).1]; rfl
    rw [this]; exact h3
  obtain ⟨f1, f2, f3, f4, f5, f6, _⟩ := entered_facts
    (((s.pushed k1 s.core.psw).pushed k2 (s.core.csp.setWidth 16)).pushed k3 ret) (entryPsw s.core.psw level mulip) true
  refine ⟨_, ?_, f1, f2, f3, f4, f5, f6,
    entered_steady _ _ (by rw [pushed_steady, pushed_steady, pushed_steady])⟩
  have hc : s.entryClears level = true := by unfold State.entryClears; simp [hseg]
  unfold enter
  rw [Act.look_bind, Act.look_bind, Act.look_bind, Act.look_bind, Act.bind_ok (push_run _ h1)]
  simp only [hseg, Bool.not_false, if_true]
  rw [Act.bind_ok (push_run (k := k2) _ (by rw [pushed_stackAt, pushed_spDown]; exact h2)), Act.bind_ok (push_run _ h3'),
    Act.change_bind, hc]
  rfl

/-- The entry sequence without segmentation: two pushes; only TRAP may leave CSP. -/
theorem enter_flat {s : State} {k1 k2 : Nat} (n : Nat) (level : Option (BitVec 4)) (ret : Word) (mulip : Bool)
    (hseg : s.sgtdis = true) (h1 : s.stackAt s.spDown = some k1) (h2 : s.stackAt s.spDown2 = some k2) :
    ∃ u : State, enter n level ret mulip s = .ok ((), u.branch (BitVec.ofNat 16 (4 * n))) ∧
      u.mem = ((s.pushed k1 s.core.psw).pushed k2 ret).mem ∧
      u.core.sp = ((s.pushed k1 s.core.psw).pushed k2 ret).core.sp ∧
      u.core.psw = entryPsw s.core.psw level mulip ∧
      u.core.tfr = ((s.pushed k1 s.core.psw).pushed k2 ret).core.tfr ∧
      u.sys.treq = ((s.pushed k1 s.core.psw).pushed k2 ret).sys.treq ∧
      u.core.csp = (if level.isSome || !wbit s.core.syscon 11 then 0 else s.core.csp) ∧
      u.steady = (s.setPsw (entryPsw s.core.psw level mulip)).steady := by
  have hc : s.entryClears level = (level.isSome || !wbit s.core.syscon 11) := by unfold State.entryClears; simp [hseg]
  obtain ⟨f1, f2, f3, f4, f5, f6, _⟩ := entered_facts ((s.pushed k1 s.core.psw).pushed k2 ret)
    (entryPsw s.core.psw level mulip) (s.entryClears level)
  refine ⟨_, ?_, f1, f2, f3, f4, f5, ?_, entered_steady _ _ (by rw [pushed_steady, pushed_steady])⟩
  · unfold enter
    rw [Act.look_bind, Act.look_bind, Act.look_bind, Act.look_bind, Act.bind_ok (push_run _ h1)]
    simp only [hseg, Bool.not_true]
    rw [if_neg (by simp), Act.bind_ok (push_run (k := k2) _ (by rw [pushed_stackAt, pushed_spDown]; exact h2)),
      Act.change_bind]
    rfl
  · rw [f6, hc, pushed_csp, pushed_csp]

end Sys2Proof.Machine
end

