-- ==== Sys2Proof/Laws/PerInstr.lean ====
section
/-! SUPPORT. Facts about every instruction, one lemma each. -/
namespace Sys2Proof.Laws.EncodedLength

/-- The encoding of the instruction has as many bytes as its first byte says (30_encoding.md R161). -/
def Statement (i : Sys2Proof.Instr) : Prop :=
  (encode i).length = match encode i with
    | [] => 1
    | b :: _ => if isLong b then 4 else 2

/-- A first byte whose low nibble is D, E or F begins a 2-byte instruction. -/
theorem isLong_high (q n : BitVec 4) (h : n = 0xD ∨ n = 0xE ∨ n = 0xF) : isLong (q ++ n) = false := by
  rcases h with rfl | rfl | rfl <;> revert q <;> decide

theorem addRR (rn : Gpr) (rm : Gpr) : Statement (.addRR rn rm) := rfl
theorem addRI (rn : Gpr) (ri : BitVec 2) : Statement (.addRI rn ri) := rfl
theorem addRIP (rn : Gpr) (ri : BitVec 2) : Statement (.addRIP rn ri) := rfl
theorem addR3 (rn : Gpr) (d : BitVec 3) : Statement (.addR3 rn d) := rfl
theorem addRegImm (reg : Byte) (d : Word) : Statement (.addRegImm reg d) := rfl
theorem addRegMem (reg : Byte) (mem : Word) : Statement (.addRegMem reg mem) := rfl
theorem addMemReg (mem : Word) (reg : Byte) : Statement (.addMemReg mem reg) := rfl
theorem addbRR (rn : Gpr) (rm : Gpr) : Statement (.addbRR rn rm) := rfl
theorem addbRI (rn : Gpr) (ri : BitVec 2) : Statement (.addbRI rn ri) := rfl
theorem addbRIP (rn : Gpr) (ri : BitVec 2) : Statement (.addbRIP rn ri) := rfl
theorem addbR3 (rn : Gpr) (d : BitVec 3) : Statement (.addbR3 rn d) := rfl
theorem addbRegImm (reg : Byte) (d : Byte) : Statement (.addbRegImm reg d) := rfl
theorem addbRegMem (reg : Byte) (mem : Word) : Statement (.addbRegMem reg mem) := rfl
theorem addbMemReg (mem : Word) (reg : Byte) : Statement (.addbMemReg mem reg) := rfl
theorem addcRR (rn : Gpr) (rm : Gpr) : Statement (.addcRR rn rm) := rfl
theorem addcRI (rn : Gpr) (ri : BitVec 2) : Statement (.addcRI rn ri) := rfl
theorem addcRIP (rn : Gpr) (ri : BitVec 2) : Statement (.addcRIP rn ri) := rfl
theorem addcR3 (rn : Gpr) (d : BitVec 3) : Statement (.addcR3 rn d) := rfl
theorem addcRegImm (reg : Byte) (d : Word) : Statement (.addcRegImm reg d) := rfl
theorem addcRegMem (reg : Byte) (mem : Word) : Statement (.addcRegMem reg mem) := rfl
theorem addcMemReg (mem : Word) (reg : Byte) : Statement (.addcMemReg mem reg) := rfl
theorem addcbRR (rn : Gpr) (rm : Gpr) : Statement (.addcbRR rn rm) := rfl
theorem addcbRI (rn : Gpr) (ri : BitVec 2) : Statement (.addcbRI rn ri) := rfl
theorem addcbRIP (rn : Gpr) (ri : BitVec 2) : Statement (.addcbRIP rn ri) := rfl
theorem addcbR3 (rn : Gpr) (d : BitVec 3) : Statement (.addcbR3 rn d) := rfl
theorem addcbRegImm (reg : Byte) (d : Byte) : Statement (.addcbRegImm reg d) := rfl
theorem addcbRegMem (reg : Byte) (mem : Word) : Statement (.addcbRegMem reg mem) := rfl
theorem addcbMemReg (mem : Word) (reg : Byte) : Statement (.addcbMemReg mem reg) := rfl
theorem subRR (rn : Gpr) (rm : Gpr) : Statement (.subRR rn rm) := rfl
theorem subRI (rn : Gpr) (ri : BitVec 2) : Statement (.subRI rn ri) := rfl
theorem subRIP (rn : Gpr) (ri : BitVec 2) : Statement (.subRIP rn ri) := rfl
theorem subR3 (rn : Gpr) (d : BitVec 3) : Statement (.subR3 rn d) := rfl
theorem subRegImm (reg : Byte) (d : Word) : Statement (.subRegImm reg d) := rfl
theorem subRegMem (reg : Byte) (mem : Word) : Statement (.subRegMem reg mem) := rfl
theorem subMemReg (mem : Word) (reg : Byte) : Statement (.subMemReg mem reg) := rfl
theorem subbRR (rn : Gpr) (rm : Gpr) : Statement (.subbRR rn rm) := rfl
theorem subbRI (rn : Gpr) (ri : BitVec 2) : Statement (.subbRI rn ri) := rfl
theorem subbRIP (rn : Gpr) (ri : BitVec 2) : Statement (.subbRIP rn ri) := rfl
theorem subbR3 (rn : Gpr) (d : BitVec 3) : Statement (.subbR3 rn d) := rfl
theorem subbRegImm (reg : Byte) (d : Byte) : Statement (.subbRegImm reg d) := rfl
theorem subbRegMem (reg : Byte) (mem : Word) : Statement (.subbRegMem reg mem) := rfl
theorem subbMemReg (mem : Word) (reg : Byte) : Statement (.subbMemReg mem reg) := rfl
theorem subcRR (rn : Gpr) (rm : Gpr) : Statement (.subcRR rn rm) := rfl
theorem subcRI (rn : Gpr) (ri : BitVec 2) : Statement (.subcRI rn ri) := rfl
theorem subcRIP (rn : Gpr) (ri : BitVec 2) : Statement (.subcRIP rn ri) := rfl
theorem subcR3 (rn : Gpr) (d : BitVec 3) : Statement (.subcR3 rn d) := rfl
theorem subcRegImm (reg : Byte) (d : Word) : Statement (.subcRegImm reg d) := rfl
theorem subcRegMem (reg : Byte) (mem : Word) : Statement (.subcRegMem reg mem) := rfl
theorem subcMemReg (mem : Word) (reg : Byte) : Statement (.subcMemReg mem reg) := rfl
theorem subcbRR (rn : Gpr) (rm : Gpr) : Statement (.subcbRR rn rm) := rfl
theorem subcbRI (rn : Gpr) (ri : BitVec 2) : Statement (.subcbRI rn ri) := rfl
theorem subcbRIP (rn : Gpr) (ri : BitVec 2) : Statement (.subcbRIP rn ri) := rfl
theorem subcbR3 (rn : Gpr) (d : BitVec 3) : Statement (.subcbR3 rn d) := rfl
theorem subcbRegImm (reg : Byte) (d : Byte) : Statement (.subcbRegImm reg d) := rfl
theorem subcbRegMem (reg : Byte) (mem : Word) : Statement (.subcbRegMem reg mem) := rfl
theorem subcbMemReg (mem : Word) (reg : Byte) : Statement (.subcbMemReg mem reg) := rfl
theorem cmpRR (rn : Gpr) (rm : Gpr) : Statement (.cmpRR rn rm) := rfl
theorem cmpRI (rn : Gpr) (ri : BitVec 2) : Statement (.cmpRI rn ri) := rfl
theorem cmpRIP (rn : Gpr) (ri : BitVec 2) : Statement (.cmpRIP rn ri) := rfl
theorem cmpR3 (rn : Gpr) (d : BitVec 3) : Statement (.cmpR3 rn d) := rfl
theorem cmpRegImm (reg : Byte) (d : Word) : Statement (.cmpRegImm reg d) := rfl
theorem cmpRegMem (reg : Byte) (mem : Word) : Statement (.cmpRegMem reg mem) := rfl
theorem cmpbRR (rn : Gpr) (rm : Gpr) : Statement (.cmpbRR rn rm) := rfl
theorem cmpbRI (rn : Gpr) (ri : BitVec 2) : Statement (.cmpbRI rn ri) := rfl
theorem cmpbRIP (rn : Gpr) (ri : BitVec 2) : Statement (.cmpbRIP rn ri) := rfl
theorem cmpbR3 (rn : Gpr) (d : BitVec 3) : Statement (.cmpbR3 rn d) := rfl
theorem cmpbRegImm (reg : Byte) (d : Byte) : Statement (.cmpbRegImm reg d) := rfl
theorem cmpbRegMem (reg : Byte) (mem : Word) : Statement (.cmpbRegMem reg mem) := rfl
theorem xorRR (rn : Gpr) (rm : Gpr) : Statement (.xorRR rn rm) := rfl
theorem xorRI (rn : Gpr) (ri : BitVec 2) : Statement (.xorRI rn ri) := rfl
theorem xorRIP (rn : Gpr) (ri : BitVec 2) : Statement (.xorRIP rn ri) := rfl
theorem xorR3 (rn : Gpr) (d : BitVec 3) : Statement (.xorR3 rn d) := rfl
theorem xorRegImm (reg : Byte) (d : Word) : Statement (.xorRegImm reg d) := rfl
theorem xorRegMem (reg : Byte) (mem : Word) : Statement (.xorRegMem reg mem) := rfl
theorem xorMemReg (mem : Word) (reg : Byte) : Statement (.xorMemReg mem reg) := rfl
theorem xorbRR (rn : Gpr) (rm : Gpr) : Statement (.xorbRR rn rm) := rfl
theorem xorbRI (rn : Gpr) (ri : BitVec 2) : Statement (.xorbRI rn ri) := rfl
theorem xorbRIP (rn : Gpr) (ri : BitVec 2) : Statement (.xorbRIP rn ri) := rfl
theorem xorbR3 (rn : Gpr) (d : BitVec 3) : Statement (.xorbR3 rn d) := rfl
theorem xorbRegImm (reg : Byte) (d : Byte) : Statement (.xorbRegImm reg d) := rfl
theorem xorbRegMem (reg : Byte) (mem : Word) : Statement (.xorbRegMem reg mem) := rfl
theorem xorbMemReg (mem : Word) (reg : Byte) : Statement (.xorbMemReg mem reg) := rfl
theorem andRR (rn : Gpr) (rm : Gpr) : Statement (.andRR rn rm) := rfl
theorem andRI (rn : Gpr) (ri : BitVec 2) : Statement (.andRI rn ri) := rfl
theorem andRIP (rn : Gpr) (ri : BitVec 2) : Statement (.andRIP rn ri) := rfl
theorem andR3 (rn : Gpr) (d : BitVec 3) : Statement (.andR3 rn d) := rfl
theorem andRegImm (reg : Byte) (d : Word) : Statement (.andRegImm reg d) := rfl
theorem andRegMem (reg : Byte) (mem : Word) : Statement (.andRegMem reg mem) := rfl
theorem andMemReg (mem : Word) (reg : Byte) : Statement (.andMemReg mem reg) := rfl
theorem andbRR (rn : Gpr) (rm : Gpr) : Statement (.andbRR rn rm) := rfl
theorem andbRI (rn : Gpr) (ri : BitVec 2) : Statement (.andbRI rn ri) := rfl
theorem andbRIP (rn : Gpr) (ri : BitVec 2) : Statement (.andbRIP rn ri) := rfl
theorem andbR3 (rn : Gpr) (d : BitVec 3) : Statement (.andbR3 rn d) := rfl
theorem andbRegImm (reg : Byte) (d : Byte) : Statement (.andbRegImm reg d) := rfl
theorem andbRegMem (reg : Byte) (mem : Word) : Statement (.andbRegMem reg mem) := rfl
theorem andbMemReg (mem : Word) (reg : Byte) : Statement (.andbMemReg mem reg) := rfl
theorem orRR (rn : Gpr) (rm : Gpr) : Statement (.orRR rn rm) := rfl
theorem orRI (rn : Gpr) (ri : BitVec 2) : Statement (.orRI rn ri) := rfl
theorem orRIP (rn : Gpr) (ri : BitVec 2) : Statement (.orRIP rn ri) := rfl
theorem orR3 (rn : Gpr) (d : BitVec 3) : Statement (.orR3 rn d) := rfl
theorem orRegImm (reg : Byte) (d : Word) : Statement (.orRegImm reg d) := rfl
theorem orRegMem (reg : Byte) (mem : Word) : Statement (.orRegMem reg mem) := rfl
theorem orMemReg (mem : Word) (reg : Byte) : Statement (.orMemReg mem reg) := rfl
theorem orbRR (rn : Gpr) (rm : Gpr) : Statement (.orbRR rn rm) := rfl
theorem orbRI (rn : Gpr) (ri : BitVec 2) : Statement (.orbRI rn ri) := rfl
theorem orbRIP (rn : Gpr) (ri : BitVec 2) : Statement (.orbRIP rn ri) := rfl
theorem orbR3 (rn : Gpr) (d : BitVec 3) : Statement (.orbR3 rn d) := rfl
theorem orbRegImm (reg : Byte) (d : Byte) : Statement (.orbRegImm reg d) := rfl
theorem orbRegMem (reg : Byte) (mem : Word) : Statement (.orbRegMem reg mem) := rfl
theorem orbMemReg (mem : Word) (reg : Byte) : Statement (.orbMemReg mem reg) := rfl
theorem mul (rn : Gpr) (rm : Gpr) : Statement (.mul rn rm) := rfl
theorem mulu (rn : Gpr) (rm : Gpr) : Statement (.mulu rn rm) := rfl
theorem div (rn : Gpr) : Statement (.div rn) := rfl
theorem divu (rn : Gpr) : Statement (.divu rn) := rfl
theorem divl (rn : Gpr) : Statement (.divl rn) := rfl
theorem divlu (rn : Gpr) : Statement (.divlu rn) := rfl
theorem cpl (rn : Gpr) : Statement (.cpl rn) := rfl
theorem cplb (rn : Gpr) : Statement (.cplb rn) := rfl
theorem neg (rn : Gpr) : Statement (.neg rn) := rfl
theorem negb (rn : Gpr) : Statement (.negb rn) := rfl
theorem cmpi1R4 (rn : Gpr) (d : BitVec 4) : Statement (.cmpi1R4 rn d) := rfl
theorem cmpi1R16 (rn : Gpr) (d : Word) : Statement (.cmpi1R16 rn d) := rfl
theorem cmpi1RMem (rn : Gpr) (mem : Word) : Statement (.cmpi1RMem rn mem) := rfl
theorem cmpi2R4 (rn : Gpr) (d : BitVec 4) : Statement (.cmpi2R4 rn d) := rfl
theorem cmpi2R16 (rn : Gpr) (d : Word) : Statement (.cmpi2R16 rn d) := rfl
theorem cmpi2RMem (rn : Gpr) (mem : Word) : Statement (.cmpi2RMem rn mem) := rfl
theorem cmpd1R4 (rn : Gpr) (d : BitVec 4) : Statement (.cmpd1R4 rn d) := rfl
theorem cmpd1R16 (rn : Gpr) (d : Word) : Statement (.cmpd1R16 rn d) := rfl
theorem cmpd1RMem (rn : Gpr) (mem : Word) : Statement (.cmpd1RMem rn mem) := rfl
theorem cmpd2R4 (rn : Gpr) (d : BitVec 4) : Statement (.cmpd2R4 rn d) := rfl
theorem cmpd2R16 (rn : Gpr) (d : Word) : Statement (.cmpd2R16 rn d) := rfl
theorem cmpd2RMem (rn : Gpr) (mem : Word) : Statement (.cmpd2RMem rn mem) := rfl
theorem bfldl (bitoff : Byte) (mask : Byte) (d : Byte) : Statement (.bfldl bitoff mask d) := rfl
theorem bfldh (bitoff : Byte) (mask : Byte) (d : Byte) : Statement (.bfldh bitoff mask d) := rfl
theorem bcmp (bitoffZ : Byte) (z : BitVec 4) (bitoffQ : Byte) (q : BitVec 4) : Statement (.bcmp bitoffZ z bitoffQ q) := rfl
theorem bmovn (bitoffZ : Byte) (z : BitVec 4) (bitoffQ : Byte) (q : BitVec 4) : Statement (.bmovn bitoffZ z bitoffQ q) := rfl
theorem bmov (bitoffZ : Byte) (z : BitVec 4) (bitoffQ : Byte) (q : BitVec 4) : Statement (.bmov bitoffZ z bitoffQ q) := rfl
theorem bor (bitoffZ : Byte) (z : BitVec 4) (bitoffQ : Byte) (q : BitVec 4) : Statement (.bor bitoffZ z bitoffQ q) := rfl
theorem band (bitoffZ : Byte) (z : BitVec 4) (bitoffQ : Byte) (q : BitVec 4) : Statement (.band bitoffZ z bitoffQ q) := rfl
theorem bxor (bitoffZ : Byte) (z : BitVec 4) (bitoffQ : Byte) (q : BitVec 4) : Statement (.bxor bitoffZ z bitoffQ q) := rfl
theorem bclr (bitoff : Byte) (q : BitVec 4) : Statement (.bclr bitoff q) := by
  show 2 = if isLong _ then 4 else 2
  rw [isLong_high _ _ (by decide)]; rfl
theorem bset (bitoff : Byte) (q : BitVec 4) : Statement (.bset bitoff q) := by
  show 2 = if isLong _ then 4 else 2
  rw [isLong_high _ _ (by decide)]; rfl
theorem rolRR (rn : Gpr) (rm : Gpr) : Statement (.rolRR rn rm) := rfl
theorem rolR4 (rn : Gpr) (d : BitVec 4) : Statement (.rolR4 rn d) := rfl
theorem rorRR (rn : Gpr) (rm : Gpr) : Statement (.rorRR rn rm) := rfl
theorem rorR4 (rn : Gpr) (d : BitVec 4) : Statement (.rorR4 rn d) := rfl
theorem shlRR (rn : Gpr) (rm : Gpr) : Statement (.shlRR rn rm) := rfl
theorem shlR4 (rn : Gpr) (d : BitVec 4) : Statement (.shlR4 rn d) := rfl
theorem shrRR (rn : Gpr) (rm : Gpr) : Statement (.shrRR rn rm) := rfl
theorem shrR4 (rn : Gpr) (d : BitVec 4) : Statement (.shrR4 rn d) := rfl
theorem ashrRR (rn : Gpr) (rm : Gpr) : Statement (.ashrRR rn rm) := rfl
theorem ashrR4 (rn : Gpr) (d : BitVec 4) : Statement (.ashrR4 rn d) := rfl
theorem prior (rn : Gpr) (rm : Gpr) : Statement (.prior rn rm) := rfl
theorem movRR (rn : Gpr) (rm : Gpr) : Statement (.movRR rn rm) := rfl
theorem movR4 (rn : Gpr) (d : BitVec 4) : Statement (.movR4 rn d) := rfl
theorem movRegImm (reg : Byte) (d : Word) : Statement (.movRegImm reg d) := rfl
theorem movRI (rn : Gpr) (rm : Gpr) : Statement (.movRI rn rm) := rfl
theorem movRIP (rn : Gpr) (rm : Gpr) : Statement (.movRIP rn rm) := rfl
theorem movIR (rm : Gpr) (rn : Gpr) : Statement (.movIR rm rn) := rfl
theorem movDR (rm : Gpr) (rn : Gpr) : Statement (.movDR rm rn) := rfl
theorem movII (rn : Gpr) (rm : Gpr) : Statement (.movII rn rm) := rfl
theorem movIPI (rn : Gpr) (rm : Gpr) : Statement (.movIPI rn rm) := rfl
theorem movIIP (rn : Gpr) (rm : Gpr) : Statement (.movIIP rn rm) := rfl
theorem movRX (rn : Gpr) (rm : Gpr) (d : Word) : Statement (.movRX rn rm d) := rfl
theorem movXR (rm : Gpr) (d : Word) (rn : Gpr) : Statement (.movXR rm d rn) := rfl
theorem movIMem (rn : Gpr) (mem : Word) : Statement (.movIMem rn mem) := rfl
theorem movMemI (mem : Word) (rn : Gpr) : Statement (.movMemI mem rn) := rfl
theorem movRegMem (reg : Byte) (mem : Word) : Statement (.movRegMem reg mem) := rfl
theorem movMemReg (mem : Word) (reg : Byte) : Statement (.movMemReg mem reg) := rfl
theorem movbRR (rn : Gpr) (rm : Gpr) : Statement (.movbRR rn rm) := rfl
theorem movbR4 (rn : Gpr) (d : BitVec 4) : Statement (.movbR4 rn d) := rfl
theorem movbRegImm (reg : Byte) (d : Byte) : Statement (.movbRegImm reg d) := rfl
theorem movbRI (rn : Gpr) (rm : Gpr) : Statement (.movbRI rn rm) := rfl
theorem movbRIP (rn : Gpr) (rm : Gpr) : Statement (.movbRIP rn rm) := rfl
theorem movbIR (rm : Gpr) (rn : Gpr) : Statement (.movbIR rm rn) := rfl
theorem movbDR (rm : Gpr) (rn : Gpr) : Statement (.movbDR rm rn) := rfl
theorem movbII (rn : Gpr) (rm : Gpr) : Statement (.movbII rn rm) := rfl
theorem movbIPI (rn : Gpr) (rm : Gpr) : Statement (.movbIPI rn rm) := rfl
theorem movbIIP (rn : Gpr) (rm : Gpr) : Statement (.movbIIP rn rm) := rfl
theorem movbRX (rn : Gpr) (rm : Gpr) (d : Word) : Statement (.movbRX rn rm d) := rfl
theorem movbXR (rm : Gpr) (d : Word) (rn : Gpr) : Statement (.movbXR rm d rn) := rfl
theorem movbIMem (rn : Gpr) (mem : Word) : Statement (.movbIMem rn mem) := rfl
theorem movbMemI (mem : Word) (rn : Gpr) : Statement (.movbMemI mem rn) := rfl
theorem movbRegMem (reg : Byte) (mem : Word) : Statement (.movbRegMem reg mem) := rfl
theorem movbMemReg (mem : Word) (reg : Byte) : Statement (.movbMemReg mem reg) := rfl
theorem movbsRR (rn : Gpr) (rm : Gpr) : Statement (.movbsRR rn rm) := rfl
theorem movbsRegMem (reg : Byte) (mem : Word) : Statement (.movbsRegMem reg mem) := rfl
theorem movbsMemReg (mem : Word) (reg : Byte) : Statement (.movbsMemReg mem reg) := rfl
theorem movbzRR (rn : Gpr) (rm : Gpr) : Statement (.movbzRR rn rm) := rfl
theorem movbzRegMem (reg : Byte) (mem : Word) : Statement (.movbzRegMem reg mem) := rfl
theorem movbzMemReg (mem : Word) (reg : Byte) : Statement (.movbzMemReg mem reg) := rfl
theorem push (reg : Byte) : Statement (.push reg) := rfl
theorem pop (reg : Byte) : Statement (.pop reg) := rfl
theorem scxtRegImm (reg : Byte) (d : Word) : Statement (.scxtRegImm reg d) := rfl
theorem scxtRegMem (reg : Byte) (mem : Word) : Statement (.scxtRegMem reg mem) := rfl
theorem jmpa (cc : Cc) (caddr : Word) : Statement (.jmpa cc caddr) := rfl
theorem jmpi (cc : Cc) (rn : Gpr) : Statement (.jmpi cc rn) := rfl
theorem jmpr (cc : Cc) (rel : Byte) : Statement (.jmpr cc rel) := by
  show 2 = if isLong _ then 4 else 2
  rw [isLong_high _ _ (by decide)]; rfl
theorem jmps (seg : Byte) (caddr : Word) : Statement (.jmps seg caddr) := rfl
theorem jb (bitoff : Byte) (q : BitVec 4) (rel : Byte) : Statement (.jb bitoff q rel) := rfl
theorem jnb (bitoff : Byte) (q : BitVec 4) (rel : Byte) : Statement (.jnb bitoff q rel) := rfl
theorem jbc (bitoff : Byte) (q : BitVec 4) (rel : Byte) : Statement (.jbc bitoff q rel) := rfl
theorem jnbs (bitoff : Byte) (q : BitVec 4) (rel : Byte) : Statement (.jnbs bitoff q rel) := rfl
theorem calla (cc : Cc) (caddr : Word) : Statement (.calla cc caddr) := rfl
theorem calli (cc : Cc) (rn : Gpr) : Statement (.calli cc rn) := rfl
theorem callr (rel : Byte) : Statement (.callr rel) := rfl
theorem calls (seg : Byte) (caddr : Word) : Statement (.calls seg caddr) := rfl
theorem pcall (reg : Byte) (caddr : Word) : Statement (.pcall reg caddr) := rfl
theorem trap (trap7 : BitVec 7) : Statement (.trap trap7) := rfl
theorem ret : Statement .ret := rfl
theorem rets : Statement .rets := rfl
theorem retp (reg : Byte) : Statement (.retp reg) := rfl
theorem reti : Statement .reti := rfl
theorem srst : Statement .srst := rfl
theorem idle : Statement .idle := rfl
theorem pwrdn : Statement .pwrdn := rfl
theorem srvwdt : Statement .srvwdt := rfl
theorem diswdt : Statement .diswdt := rfl
theorem einit : Statement .einit := rfl
theorem nop : Statement .nop := rfl
theorem atomic (irang : Nat) : Statement (.atomic irang) := rfl
theorem extr (irang : Nat) : Statement (.extr irang) := rfl
theorem extpR (rm : Gpr) (irang : Nat) : Statement (.extpR rm irang) := rfl
theorem extpImm (pag : BitVec 10) (irang : Nat) : Statement (.extpImm pag irang) := rfl
theorem extprR (rm : Gpr) (irang : Nat) : Statement (.extprR rm irang) := rfl
theorem extprImm (pag : BitVec 10) (irang : Nat) : Statement (.extprImm pag irang) := rfl
theorem extsR (rm : Gpr) (irang : Nat) : Statement (.extsR rm irang) := rfl
theorem extsImm (seg : Byte) (irang : Nat) : Statement (.extsImm seg irang) := rfl
theorem extsrR (rm : Gpr) (irang : Nat) : Statement (.extsrR rm irang) := rfl
theorem extsrImm (seg : Byte) (irang : Nat) : Statement (.extsrImm seg irang) := rfl

end Sys2Proof.Laws.EncodedLength
end

