-- ==== Sys2Proof/Tests/Slice0.lean ====
section
/-! SUPPORT. Tests of the model: malformed terms refused, one word of every constructor decoded, vectors and examples
of the spec (95_test_vectors.md), and for every statement with hypotheses a state that meets them. -/
namespace Sys2Proof.Tests
open Sys2Proof Sys2Proof.Machine

set_option maxRecDepth 100000

/-! ## Well-formedness: an instruction count outside 1 to 4 is refused -/

theorem test_wf_atomic : Instr.wf (.atomic 0) = false ∧ Instr.wf (.atomic 5) = false := by decide
theorem test_wf_extr : Instr.wf (.extr 0) = false ∧ Instr.wf (.extr 5) = false := by decide
theorem test_wf_extpR : Instr.wf (.extpR 0 0) = false ∧ Instr.wf (.extpR 0 5) = false := by decide
theorem test_wf_extpImm : Instr.wf (.extpImm 0 0) = false ∧ Instr.wf (.extpImm 0 5) = false := by decide
theorem test_wf_extprR : Instr.wf (.extprR 0 0) = false ∧ Instr.wf (.extprR 0 5) = false := by decide
theorem test_wf_extprImm : Instr.wf (.extprImm 0 0) = false ∧ Instr.wf (.extprImm 0 5) = false := by decide
theorem test_wf_extsR : Instr.wf (.extsR 0 0) = false ∧ Instr.wf (.extsR 0 5) = false := by decide
theorem test_wf_extsImm : Instr.wf (.extsImm 0 0) = false ∧ Instr.wf (.extsImm 0 5) = false := by decide
theorem test_wf_extsrR : Instr.wf (.extsrR 0 0) = false ∧ Instr.wf (.extsrR 0 5) = false := by decide
theorem test_wf_extsrImm : Instr.wf (.extsrImm 0 0) = false ∧ Instr.wf (.extsrImm 0 5) = false := by decide

/-! ## Decoding: one word of every row, written from the encoding columns of the opcode table (30_encoding.md R190) -/

theorem test_decode_add_to_addb :
    decode [0x00, 0xEE] = .instr (.addRR 0xe 0xe) [] ∧
    decode [0x08, 0xE9] = .instr (.addRI 0xe 1) [] ∧
    decode [0x08, 0x5F] = .instr (.addRIP 5 3) [] ∧
    decode [0x08, 0x51] = .instr (.addR3 5 1) [] ∧
    decode [0x06, 0xE4, 0x57, 0x9B] = .instr (.addRegImm 0xe4 0x9b57) [] ∧
    decode [0x02, 0x48, 0x6C, 0x2E] = .instr (.addRegMem 0x48 0x2e6c) [] ∧
    decode [0x04, 0x15, 0xD5, 0xCA] = .instr (.addMemReg 0xcad5 0x15) [] ∧
    decode [0x01, 0xE5] = .instr (.addbRR 0xe 5) [] ∧
    decode [0x09, 0x08] = .instr (.addbRI 0 0) [] ∧
    decode [0x09, 0x1C] = .instr (.addbRIP 1 0) [] ∧
    decode [0x09, 0x63] = .instr (.addbR3 6 3) [] ∧
    decode [0x07, 0x0F, 0xED, 0x00] = .instr (.addbRegImm 0xf 0xed) [] ∧
    decode [0x03, 0xA7, 0x8D, 0xE1] = .instr (.addbRegMem 0xa7 0xe18d) [] ∧
    decode [0x05, 0x64, 0xA0, 0x77] = .instr (.addbMemReg 0x77a0 0x64) [] := by decide
theorem test_decode_addc_to_addcb :
    decode [0x10, 0x9F] = .instr (.addcRR 9 0xf) [] ∧
    decode [0x18, 0x08] = .instr (.addcRI 0 0) [] ∧
    decode [0x18, 0xEE] = .instr (.addcRIP 0xe 2) [] ∧
    decode [0x18, 0xD1] = .instr (.addcR3 0xd 1) [] ∧
    decode [0x16, 0x82, 0x6C, 0xA1] = .instr (.addcRegImm 0x82 0xa16c) [] ∧
    decode [0x12, 0x75, 0xFD, 0x93] = .instr (.addcRegMem 0x75 0x93fd) [] ∧
    decode [0x14, 0x0F, 0xF4, 0x23] = .instr (.addcMemReg 0x23f4 0xf) [] ∧
    decode [0x11, 0x3C] = .instr (.addcbRR 3 0xc) [] ∧
    decode [0x19, 0x3A] = .instr (.addcbRI 3 2) [] ∧
    decode [0x19, 0xCC] = .instr (.addcbRIP 0xc 0) [] ∧
    decode [0x19, 0x00] = .instr (.addcbR3 0 0) [] ∧
    decode [0x17, 0x6D, 0x6B, 0x00] = .instr (.addcbRegImm 0x6d 0x6b) [] ∧
    decode [0x13, 0x1A, 0xA2, 0xF0] = .instr (.addcbRegMem 0x1a 0xf0a2) [] ∧
    decode [0x15, 0xC0, 0x7B, 0xCB] = .instr (.addcbMemReg 0xcb7b 0xc0) [] := by decide
theorem test_decode_sub_to_subb :
    decode [0x20, 0xD2] = .instr (.subRR 0xd 2) [] ∧
    decode [0x28, 0x6A] = .instr (.subRI 6 2) [] ∧
    decode [0x28, 0xAC] = .instr (.subRIP 0xa 0) [] ∧
    decode [0x28, 0x95] = .instr (.subR3 9 5) [] ∧
    decode [0x26, 0x07, 0xF2, 0xD1] = .instr (.subRegImm 7 0xd1f2) [] ∧
    decode [0x22, 0x3C, 0xE9, 0x44] = .instr (.subRegMem 0x3c 0x44e9) [] ∧
    decode [0x24, 0x7E, 0xBC, 0x33] = .instr (.subMemReg 0x33bc 0x7e) [] ∧
    decode [0x21, 0x01] = .instr (.subbRR 0 1) [] ∧
    decode [0x29, 0xEB] = .instr (.subbRI 0xe 3) [] ∧
    decode [0x29, 0x5D] = .instr (.subbRIP 5 1) [] ∧
    decode [0x29, 0xE3] = .instr (.subbR3 0xe 3) [] ∧
    decode [0x27, 0x43, 0xD6, 0x00] = .instr (.subbRegImm 0x43 0xd6) [] ∧
    decode [0x23, 0xC4, 0xA6, 0x3B] = .instr (.subbRegMem 0xc4 0x3ba6) [] ∧
    decode [0x25, 0xCA, 0x6D, 0xD7] = .instr (.subbMemReg 0xd76d 0xca) [] := by decide
theorem test_decode_subc_to_subcb :
    decode [0x30, 0x60] = .instr (.subcRR 6 0) [] ∧
    decode [0x38, 0x8A] = .instr (.subcRI 8 2) [] ∧
    decode [0x38, 0x0D] = .instr (.subcRIP 0 1) [] ∧
    decode [0x38, 0x56] = .instr (.subcR3 5 6) [] ∧
    decode [0x36, 0x33, 0x8F, 0x15] = .instr (.subcRegImm 0x33 0x158f) [] ∧
    decode [0x32, 0x4A, 0x2E, 0x6D] = .instr (.subcRegMem 0x4a 0x6d2e) [] ∧
    decode [0x34, 0xE2, 0x3C, 0x84] = .instr (.subcMemReg 0x843c 0xe2) [] ∧
    decode [0x31, 0x0A] = .instr (.subcbRR 0 0xa) [] ∧
    decode [0x39, 0x9B] = .instr (.subcbRI 9 3) [] ∧
    decode [0x39, 0x2C] = .instr (.subcbRIP 2 0) [] ∧
    decode [0x39, 0x23] = .instr (.subcbR3 2 3) [] ∧
    decode [0x37, 0x7C, 0x07, 0x00] = .instr (.subcbRegImm 0x7c 7) [] ∧
    decode [0x33, 0xBC, 0x4F, 0xBE] = .instr (.subcbRegMem 0xbc 0xbe4f) [] ∧
    decode [0x35, 0xE8, 0x23, 0x41] = .instr (.subcbMemReg 0x4123 0xe8) [] := by decide
theorem test_decode_cmp_to_cmpb :
    decode [0x40, 0xF4] = .instr (.cmpRR 0xf 4) [] ∧
    decode [0x48, 0xC9] = .instr (.cmpRI 0xc 1) [] ∧
    decode [0x48, 0x4E] = .instr (.cmpRIP 4 2) [] ∧
    decode [0x48, 0x73] = .instr (.cmpR3 7 3) [] ∧
    decode [0x46, 0x61, 0x23, 0x51] = .instr (.cmpRegImm 0x61 0x5123) [] ∧
    decode [0x42, 0x64, 0xC3, 0xC6] = .instr (.cmpRegMem 0x64 0xc6c3) [] ∧
    decode [0x41, 0xF2] = .instr (.cmpbRR 0xf 2) [] ∧
    decode [0x49, 0xD8] = .instr (.cmpbRI 0xd 0) [] ∧
    decode [0x49, 0x3C] = .instr (.cmpbRIP 3 0) [] ∧
    decode [0x49, 0x14] = .instr (.cmpbR3 1 4) [] ∧
    decode [0x47, 0x7A, 0xC8, 0x00] = .instr (.cmpbRegImm 0x7a 0xc8) [] ∧
    decode [0x43, 0x83, 0x75, 0xD7] = .instr (.cmpbRegMem 0x83 0xd775) [] := by decide
theorem test_decode_xor_to_xorb :
    decode [0x50, 0xF9] = .instr (.xorRR 0xf 9) [] ∧
    decode [0x58, 0x58] = .instr (.xorRI 5 0) [] ∧
    decode [0x58, 0x4D] = .instr (.xorRIP 4 1) [] ∧
    decode [0x58, 0xF1] = .instr (.xorR3 0xf 1) [] ∧
    decode [0x56, 0x8F, 0xBF, 0x6C] = .instr (.xorRegImm 0x8f 0x6cbf) [] ∧
    decode [0x52, 0x68, 0x7C, 0x08] = .instr (.xorRegMem 0x68 0x87c) [] ∧
    decode [0x54, 0x23, 0xD3, 0x89] = .instr (.xorMemReg 0x89d3 0x23) [] ∧
    decode [0x51, 0xDE] = .instr (.xorbRR 0xd 0xe) [] ∧
    decode [0x59, 0x78] = .instr (.xorbRI 7 0) [] ∧
    decode [0x59, 0x1D] = .instr (.xorbRIP 1 1) [] ∧
    decode [0x59, 0x95] = .instr (.xorbR3 9 5) [] ∧
    decode [0x57, 0x43, 0x2F, 0x00] = .instr (.xorbRegImm 0x43 0x2f) [] ∧
    decode [0x53, 0xB9, 0xDD, 0x46] = .instr (.xorbRegMem 0xb9 0x46dd) [] ∧
    decode [0x55, 0xE6, 0x74, 0xA9] = .instr (.xorbMemReg 0xa974 0xe6) [] := by decide
theorem test_decode_and_to_andb :
    decode [0x60, 0x41] = .instr (.andRR 4 1) [] ∧
    decode [0x68, 0x0B] = .instr (.andRI 0 3) [] ∧
    decode [0x68, 0xBE] = .instr (.andRIP 0xb 2) [] ∧
    decode [0x68, 0x10] = .instr (.andR3 1 0) [] ∧
    decode [0x66, 0x26, 0xE7, 0xF6] = .instr (.andRegImm 0x26 0xf6e7) [] ∧
    decode [0x62, 0x22, 0x43, 0x9F] = .instr (.andRegMem 0x22 0x9f43) [] ∧
    decode [0x64, 0xA3, 0xF1, 0x45] = .instr (.andMemReg 0x45f1 0xa3) [] ∧
    decode [0x61, 0x22] = .instr (.andbRR 2 2) [] ∧
    decode [0x69, 0xEA] = .instr (.andbRI 0xe 2) [] ∧
    decode [0x69, 0x1D] = .instr (.andbRIP 1 1) [] ∧
    decode [0x69, 0xA5] = .instr (.andbR3 0xa 5) [] ∧
    decode [0x67, 0x2B, 0xF2, 0x00] = .instr (.andbRegImm 0x2b 0xf2) [] ∧
    decode [0x63, 0x27, 0x95, 0xD5] = .instr (.andbRegMem 0x27 0xd595) [] ∧
    decode [0x65, 0x0F, 0xF6, 0xFF] = .instr (.andbMemReg 0xfff6 0xf) [] := by decide
theorem test_decode_or_to_orb :
    decode [0x70, 0x0C] = .instr (.orRR 0 0xc) [] ∧
    decode [0x78, 0xC8] = .instr (.orRI 0xc 0) [] ∧
    decode [0x78, 0x2C] = .instr (.orRIP 2 0) [] ∧
    decode [0x78, 0x21] = .instr (.orR3 2 1) [] ∧
    decode [0x76, 0x83, 0x1E, 0xD5] = .instr (.orRegImm 0x83 0xd51e) [] ∧
    decode [0x72, 0xA9, 0xE1, 0xC6] = .instr (.orRegMem 0xa9 0xc6e1) [] ∧
    decode [0x74, 0xEA, 0x8C, 0xE1] = .instr (.orMemReg 0xe18c 0xea) [] ∧
    decode [0x71, 0xE2] = .instr (.orbRR 0xe 2) [] ∧
    decode [0x79, 0x0A] = .instr (.orbRI 0 2) [] ∧
    decode [0x79, 0x2F] = .instr (.orbRIP 2 3) [] ∧
    decode [0x79, 0x03] = .instr (.orbR3 0 3) [] ∧
    decode [0x77, 0x39, 0xFE, 0x00] = .instr (.orbRegImm 0x39 0xfe) [] ∧
    decode [0x73, 0xF8, 0xFC, 0x82] = .instr (.orbRegMem 0xf8 0x82fc) [] ∧
    decode [0x75, 0x05, 0x64, 0xBC] = .instr (.orbMemReg 0xbc64 5) [] := by decide
theorem test_decode_mul_to_cmpi1 :
    decode [0x0B, 0x94] = .instr (.mul 9 4) [] ∧
    decode [0x1B, 0x65] = .instr (.mulu 6 5) [] ∧
    decode [0x4B, 0xAA] = .instr (.div 0xa) [] ∧
    decode [0x5B, 0xFF] = .instr (.divu 0xf) [] ∧
    decode [0x6B, 0xAA] = .instr (.divl 0xa) [] ∧
    decode [0x7B, 0x88] = .instr (.divlu 8) [] ∧
    decode [0x91, 0xD0] = .instr (.cpl 0xd) [] ∧
    decode [0xB1, 0x60] = .instr (.cplb 6) [] ∧
    decode [0x81, 0x60] = .instr (.neg 6) [] ∧
    decode [0xA1, 0xC0] = .instr (.negb 0xc) [] ∧
    decode [0x80, 0x7A] = .instr (.cmpi1R4 0xa 7) [] ∧
    decode [0x86, 0xF6, 0xB8, 0x45] = .instr (.cmpi1R16 6 0x45b8) [] ∧
    decode [0x82, 0xF4, 0x30, 0xFE] = .instr (.cmpi1RMem 4 0xfe30) [] := by decide
theorem test_decode_cmpi2_to_bmov :
    decode [0x90, 0xB1] = .instr (.cmpi2R4 1 0xb) [] ∧
    decode [0x96, 0xF2, 0xB8, 0x8D] = .instr (.cmpi2R16 2 0x8db8) [] ∧
    decode [0x92, 0xF5, 0xC4, 0x39] = .instr (.cmpi2RMem 5 0x39c4) [] ∧
    decode [0xA0, 0xEF] = .instr (.cmpd1R4 0xf 0xe) [] ∧
    decode [0xA6, 0xF8, 0x9B, 0x6D] = .instr (.cmpd1R16 8 0x6d9b) [] ∧
    decode [0xA2, 0xFD, 0xDD, 0xC3] = .instr (.cmpd1RMem 0xd 0xc3dd) [] ∧
    decode [0xB0, 0xFA] = .instr (.cmpd2R4 0xa 0xf) [] ∧
    decode [0xB6, 0xFE, 0x04, 0xA4] = .instr (.cmpd2R16 0xe 0xa404) [] ∧
    decode [0xB2, 0xF2, 0x1E, 0x10] = .instr (.cmpd2RMem 2 0x101e) [] ∧
    decode [0x0A, 0x8E, 0x15, 0x8F] = .instr (.bfldl 0x8e 0x15 0x8f) [] ∧
    decode [0x1A, 0xB5, 0x9E, 0x09] = .instr (.bfldh 0xb5 9 0x9e) [] ∧
    decode [0x2A, 0x45, 0xCF, 0xE6] = .instr (.bcmp 0xcf 6 0x45 0xe) [] ∧
    decode [0x3A, 0x0C, 0x88, 0x74] = .instr (.bmovn 0x88 4 0xc 7) [] ∧
    decode [0x4A, 0x18, 0x3B, 0xE3] = .instr (.bmov 0x3b 3 0x18 0xe) [] := by decide
theorem test_decode_bor_to_shr :
    decode [0x5A, 0xBC, 0x27, 0x66] = .instr (.bor 0x27 6 0xbc 6) [] ∧
    decode [0x6A, 0xF3, 0x83, 0x50] = .instr (.band 0x83 0 0xf3 5) [] ∧
    decode [0x7A, 0xF1, 0x12, 0x57] = .instr (.bxor 0x12 7 0xf1 5) [] ∧
    decode [0x0E, 0x8B] = .instr (.bclr 0x8b 0) [] ∧
    decode [0x0F, 0xB1] = .instr (.bset 0xb1 0) [] ∧
    decode [0x0C, 0x5C] = .instr (.rolRR 5 0xc) [] ∧
    decode [0x1C, 0x72] = .instr (.rolR4 2 7) [] ∧
    decode [0x2C, 0xDC] = .instr (.rorRR 0xd 0xc) [] ∧
    decode [0x3C, 0x4E] = .instr (.rorR4 0xe 4) [] ∧
    decode [0x4C, 0xE6] = .instr (.shlRR 0xe 6) [] ∧
    decode [0x5C, 0x0C] = .instr (.shlR4 0xc 0) [] ∧
    decode [0x6C, 0xAE] = .instr (.shrRR 0xa 0xe) [] ∧
    decode [0x7C, 0xA6] = .instr (.shrR4 6 0xa) [] := by decide
theorem test_decode_ashr_to_prior :
    decode [0xAC, 0x33] = .instr (.ashrRR 3 3) [] ∧
    decode [0xBC, 0x67] = .instr (.ashrR4 7 6) [] ∧
    decode [0x2B, 0xC2] = .instr (.prior 0xc 2) [] := by decide
theorem test_decode_mov_to_mov :
    decode [0xF0, 0x9A] = .instr (.movRR 9 0xa) [] ∧
    decode [0xE0, 0x80] = .instr (.movR4 0 8) [] ∧
    decode [0xE6, 0xB2, 0x61, 0x2A] = .instr (.movRegImm 0xb2 0x2a61) [] ∧
    decode [0xA8, 0x1E] = .instr (.movRI 1 0xe) [] ∧
    decode [0x98, 0xAD] = .instr (.movRIP 0xa 0xd) [] ∧
    decode [0xB8, 0x8F] = .instr (.movIR 0xf 8) [] ∧
    decode [0x88, 0x06] = .instr (.movDR 6 0) [] ∧
    decode [0xC8, 0x2D] = .instr (.movII 2 0xd) [] ∧
    decode [0xD8, 0x15] = .instr (.movIPI 1 5) [] ∧
    decode [0xE8, 0xA4] = .instr (.movIIP 0xa 4) [] ∧
    decode [0xD4, 0xF4, 0x5D, 0xE1] = .instr (.movRX 0xf 4 0xe15d) [] ∧
    decode [0xC4, 0xF2, 0x5D, 0x71] = .instr (.movXR 2 0x715d 0xf) [] ∧
    decode [0x84, 0x0E, 0x91, 0x94] = .instr (.movIMem 0xe 0x9491) [] ∧
    decode [0x94, 0x05, 0x55, 0x83] = .instr (.movMemI 0x8355 5) [] ∧
    decode [0xF2, 0x9F, 0x2E, 0xC3] = .instr (.movRegMem 0x9f 0xc32e) [] ∧
    decode [0xF6, 0x6A, 0xE1, 0x9B] = .instr (.movMemReg 0x9be1 0x6a) [] := by decide
theorem test_decode_movb_to_movb :
    decode [0xF1, 0x48] = .instr (.movbRR 4 8) [] ∧
    decode [0xE1, 0xF6] = .instr (.movbR4 6 0xf) [] ∧
    decode [0xE7, 0xD2, 0x3A, 0x00] = .instr (.movbRegImm 0xd2 0x3a) [] ∧
    decode [0xA9, 0x0C] = .instr (.movbRI 0 0xc) [] ∧
    decode [0x99, 0x01] = .instr (.movbRIP 0 1) [] ∧
    decode [0xB9, 0xC3] = .instr (.movbIR 3 0xc) [] ∧
    decode [0x89, 0xF2] = .instr (.movbDR 2 0xf) [] ∧
    decode [0xC9, 0x52] = .instr (.movbII 5 2) [] ∧
    decode [0xD9, 0xED] = .instr (.movbIPI 0xe 0xd) [] ∧
    decode [0xE9, 0xC8] = .instr (.movbIIP 0xc 8) [] ∧
    decode [0xF4, 0x7F, 0x6F, 0xFC] = .instr (.movbRX 7 0xf 0xfc6f) [] ∧
    decode [0xE4, 0x4A, 0x0A, 0xDE] = .instr (.movbXR 0xa 0xde0a 4) [] ∧
    decode [0xA4, 0x0F, 0x69, 0xA2] = .instr (.movbIMem 0xf 0xa269) [] ∧
    decode [0xB4, 0x03, 0x05, 0x62] = .instr (.movbMemI 0x6205 3) [] ∧
    decode [0xF3, 0xD6, 0x0F, 0x0F] = .instr (.movbRegMem 0xd6 0xf0f) [] ∧
    decode [0xF7, 0x85, 0x48, 0x42] = .instr (.movbMemReg 0x4248 0x85) [] := by decide
theorem test_decode_movbs_to_jmps :
    decode [0xD0, 0x01] = .instr (.movbsRR 1 0) [] ∧
    decode [0xD2, 0x63, 0xA1, 0x4F] = .instr (.movbsRegMem 0x63 0x4fa1) [] ∧
    decode [0xD5, 0x74, 0x0E, 0x06] = .instr (.movbsMemReg 0x60e 0x74) [] ∧
    decode [0xC0, 0x9A] = .instr (.movbzRR 0xa 9) [] ∧
    decode [0xC2, 0xB5, 0x2A, 0x7D] = .instr (.movbzRegMem 0xb5 0x7d2a) [] ∧
    decode [0xC5, 0xFF, 0xB3, 0x35] = .instr (.movbzMemReg 0x35b3 0xff) [] ∧
    decode [0xEC, 0xFF] = .instr (.push 0xff) [] ∧
    decode [0xFC, 0x3E] = .instr (.pop 0x3e) [] ∧
    decode [0xC6, 0x80, 0x3C, 0x65] = .instr (.scxtRegImm 0x80 0x653c) [] ∧
    decode [0xD6, 0xDF, 0xE7, 0x0B] = .instr (.scxtRegMem 0xdf 0xbe7) [] ∧
    decode [0xEA, 0xC0, 0xA9, 0xD3] = .instr (.jmpa .slt 0xd3a9) [] ∧
    decode [0x9C, 0x56] = .instr (.jmpi .nv 6) [] ∧
    decode [0x0D, 0x6F] = .instr (.jmpr .uc 0x6f) [] ∧
    decode [0xFA, 0x6E, 0xDE, 0x45] = .instr (.jmps 0x6e 0x45de) [] := by decide
theorem test_decode_jb_to_reti :
    decode [0x8A, 0x77, 0xB1, 0x50] = .instr (.jb 0x77 5 0xb1) [] ∧
    decode [0x9A, 0xA1, 0xA1, 0x60] = .instr (.jnb 0xa1 6 0xa1) [] ∧
    decode [0xAA, 0x6F, 0x63, 0x30] = .instr (.jbc 0x6f 3 0x63) [] ∧
    decode [0xBA, 0x44, 0x7A, 0x40] = .instr (.jnbs 0x44 4 0x7a) [] ∧
    decode [0xCA, 0x20, 0xDC, 0x84] = .instr (.calla .z 0x84dc) [] ∧
    decode [0xAB, 0xC3] = .instr (.calli .slt 3) [] ∧
    decode [0xBB, 0xDE] = .instr (.callr 0xde) [] ∧
    decode [0xDA, 0xD7, 0x83, 0x40] = .instr (.calls 0xd7 0x4083) [] ∧
    decode [0xE2, 0x66, 0x39, 0xCE] = .instr (.pcall 0x66 0xce39) [] ∧
    decode [0x9B, 0x08] = .instr (.trap 4) [] ∧
    decode [0xCB, 0x00] = .instr (.ret) [] ∧
    decode [0xDB, 0x00] = .instr (.rets) [] ∧
    decode [0xEB, 0x31] = .instr (.retp 0x31) [] ∧
    decode [0xFB, 0x88] = .instr (.reti) [] := by decide
theorem test_decode_srst_to_extpr :
    decode [0xB7, 0x48, 0xB7, 0xB7] = .instr (.srst) [] ∧
    decode [0x87, 0x78, 0x87, 0x87] = .instr (.idle) [] ∧
    decode [0x97, 0x68, 0x97, 0x97] = .instr (.pwrdn) [] ∧
    decode [0xA7, 0x58, 0xA7, 0xA7] = .instr (.srvwdt) [] ∧
    decode [0xA5, 0x5A, 0xA5, 0xA5] = .instr (.diswdt) [] ∧
    decode [0xB5, 0x4A, 0xB5, 0xB5] = .instr (.einit) [] ∧
    decode [0xCC, 0x00] = .instr (.nop) [] ∧
    decode [0xD1, 0x10] = .instr (.atomic 2) [] ∧
    decode [0xD1, 0xA0] = .instr (.extr 3) [] ∧
    decode [0xDC, 0x63] = .instr (.extpR 3 3) [] ∧
    decode [0xD7, 0x60, 0x83, 0x01] = .instr (.extpImm 0x183 3) [] ∧
    decode [0xDC, 0xCF] = .instr (.extprR 0xf 1) [] ∧
    decode [0xD7, 0xC0, 0x31, 0x00] = .instr (.extprImm 0x31 1) [] := by decide
theorem test_decode_exts_to_extsr :
    decode [0xDC, 0x0F] = .instr (.extsR 0xf 1) [] ∧
    decode [0xD7, 0x10, 0x61, 0x00] = .instr (.extsImm 0x61 2) [] ∧
    decode [0xDC, 0x93] = .instr (.extsrR 3 2) [] ∧
    decode [0xD7, 0x90, 0x58, 0x00] = .instr (.extsrImm 0x58 2) [] := by decide

/-- Bytes that are no instruction (R162, R177, R178). -/
theorem test_decode_none :
    decode [0x8B, 0x00] = .undefinedOpcode ∧ decode [0xB7, 0x48, 0xB7, 0xB6] = .protectionFault ∧
    decode [0x4B, 0x34] = .reserved ∧ decode [0x9B, 0x21] = .reserved := by decide
/-- Instruction lengths (R161, vector VM13). -/
theorem test_length : isLong 0xE6 = true ∧ isLong 0xE0 = false ∧ isLong 0xD7 = true ∧ isLong 0xDC = false ∧
    isLong 0x9B = false := by decide

/-! ## One instruction from a small state: the vectors of 95_test_vectors.md -/

/-- The state after the instruction of the given bytes. -/
def run (bytes : List Byte) (s : State) : Option State :=
  match decode bytes with
  | .instr i [] => (match exec i s with | .next t => some t | _ => none)
  | _ => none

/-- The state after reset. -/
def start : State := State.reset

/-- Rn holds `v`. -/
def gprIs (n : Gpr) (v : Word) (s : State) : State := { s with mem := s.mem.setWord (s.gprAt n) v }

/-- The internal RAM word at `a` holds `v`. -/
def ramIs (a : Nat) (v : Word) (s : State) : State := { s with mem := s.mem.setWord (iramCell a) v }

/-- The internal RAM word at `a`. -/
def ram (a : Nat) (s : State) : Word := s.mem.getWord (iramCell a)

/-- The core registers are changed by `f`. -/
def coreIs (f : Core → Core) (s : State) : State := { s with core := f s.core }

/-- A peripheral register holds `v`. -/
def sfrIs (r : Sfr) (v : Word) (s : State) : State := s.setReg r v

/-- Vector VA1 of 95_test_vectors.md. -/
theorem test_VA1 :
    (run [0x00, 0x12] (gprIs 1 0x7FFF (gprIs 2 0x0001 start))).map (fun t => (t.gpr 1, t.core.psw)) = some (0x8000, 0x0005) := by decide
/-- Vector VA3 of 95_test_vectors.md. -/
theorem test_VA3 :
    (run [0x00, 0x01] (gprIs 0 0x8000 (gprIs 1 0x8000 start))).map (fun t => (t.gpr 0, t.core.psw)) = some (0x0000, 0x001E) := by decide
/-- Vector VA4 of 95_test_vectors.md. -/
theorem test_VA4 :
    (run [0x01, 0x23] (gprIs 1 0x8080 start)).map (fun t => (t.gpr 1, t.core.psw)) = some (0x8000, 0x001E) := by decide
/-- Vector VA5 of 95_test_vectors.md. -/
theorem test_VA5 :
    (run [0x10, 0x12] (gprIs 1 0xFFFF (gprIs 2 0x0000 (coreIs (fun c => { c with psw := 0x000A }) start)))).map (fun t => (t.gpr 1, t.core.psw)) = some (0x0000, 0x000A) := by decide
/-- Vector VA6 of 95_test_vectors.md. -/
theorem test_VA6 :
    (run [0x10, 0x12] (gprIs 1 0xFFFF (gprIs 2 0x0000 (coreIs (fun c => { c with psw := 0x0002 }) start)))).map (fun t => (t.gpr 1, t.core.psw)) = some (0x0000, 0x0002) := by decide
/-- Vector VA7 of 95_test_vectors.md. -/
theorem test_VA7 :
    (run [0x19, 0x00] (gprIs 0 0x007F (coreIs (fun c => { c with psw := 0x0002 }) start))).map (fun t => (t.gpr 0, t.core.psw)) = some (0x0080, 0x0005) := by decide
/-- Vector VA8 of 95_test_vectors.md. -/
theorem test_VA8 :
    (run [0x28, 0x37] (gprIs 3 0x0005 start)).map (fun t => (t.gpr 3, t.core.psw)) = some (0xFFFE, 0x0003) := by decide
/-- Vector VA9 of 95_test_vectors.md. -/
theorem test_VA9 :
    (run [0x28, 0x01] (gprIs 0 0x8000 start)).map (fun t => (t.gpr 0, t.core.psw)) = some (0x7FFF, 0x0004) := by decide
/-- Vector VA10 of 95_test_vectors.md. -/
theorem test_VA10 :
    (run [0x29, 0x41] (gprIs 2 0x0010 start)).map (fun t => (t.gpr 2, t.core.psw)) = some (0x000F, 0x0000) := by decide
/-- Vector VA11 of 95_test_vectors.md. -/
theorem test_VA11 :
    (run [0x30, 0x12] (coreIs (fun c => { c with psw := 0x000A }) start)).map (fun t => (t.gpr 1, t.core.psw)) = some (0xFFFF, 0x0003) := by decide
/-- Vector VA12 of 95_test_vectors.md. -/
theorem test_VA12 :
    (run [0x39, 0x00] (coreIs (fun c => { c with psw := 0x0008 }) start)).map (fun t => (t.gpr 0, t.core.psw)) = some (0x0000, 0x0008) := by decide
/-- Vector VA13 of 95_test_vectors.md. -/
theorem test_VA13 :
    (run [0x0B, 0x01] (gprIs 0 0x1234 (gprIs 1 0x5678 start))).map (fun t => (t.core.mdh, t.core.mdl, t.core.psw)) = some (0x0626, 0x0060, 0x0004) := by decide
/-- Vector VA14 of 95_test_vectors.md. -/
theorem test_VA14 :
    (run [0x0B, 0x01] (gprIs 0 0xFFFF (gprIs 1 0x0002 start))).map (fun t => (t.core.mdh, t.core.mdl, t.core.psw)) = some (0xFFFF, 0xFFFE, 0x0001) := by decide
/-- Vector VA15 of 95_test_vectors.md. -/
theorem test_VA15 :
    (run [0x1B, 0x12] (gprIs 1 0x0100 (gprIs 2 0x0100 start))).map (fun t => (t.core.mdh, t.core.mdl, t.core.psw)) = some (0x0001, 0x0000, 0x0004) := by decide
/-- Vector VA16 of 95_test_vectors.md. -/
theorem test_VA16 :
    (run [0x1B, 0x12] (gprIs 1 0xFFFF (gprIs 2 0xFFFF start))).map (fun t => (t.core.mdh, t.core.mdl, t.core.psw)) = some (0xFFFE, 0x0001, 0x0005) := by decide
/-- Vector VA17 of 95_test_vectors.md. -/
theorem test_VA17 :
    (run [0x4B, 0x33] (gprIs 3 0x0002 (coreIs (fun c => { c with mdl := 0xFFF9 }) start))).map (fun t => (t.core.mdh, t.core.mdl, t.core.psw)) = some (0xFFFF, 0xFFFD, 0x0001) := by decide
/-- Vector VA19 of 95_test_vectors.md. -/
theorem test_VA19 :
    (run [0x5B, 0x22] (gprIs 2 0x000A (coreIs (fun c => { c with mdl := 0x0064 }) start))).map (fun t => (t.core.mdh, t.core.mdl, t.core.psw)) = some (0x0000, 0x000A, 0x0000) := by decide
/-- Vector VA21 of 95_test_vectors.md. -/
theorem test_VA21 :
    (run [0x6B, 0x33] (gprIs 3 0x0003 (coreIs (fun c => { c with mdh := 1 }) start))).map (fun t => (t.core.mdh, t.core.mdl, t.core.psw)) = some (0x0001, 0x5555, 0x0000) := by decide
/-- Vector VA22 of 95_test_vectors.md. -/
theorem test_VA22 :
    (run [0x7B, 0x00] (gprIs 0 0x0002 (coreIs (fun c => { c with mdh := 1 }) start))).map (fun t => (t.core.mdh, t.core.mdl, t.core.psw)) = some (0x0000, 0x8000, 0x0001) := by decide
/-- Vector VA24 of 95_test_vectors.md. -/
theorem test_VA24 :
    (run [0x91, 0x40] (gprIs 4 0x00FF start)).map (fun t => (t.gpr 4, t.core.psw)) = some (0xFF00, 0x0001) := by decide
/-- Vector VA25 of 95_test_vectors.md. -/
theorem test_VA25 :
    (run [0xB1, 0x30] (gprIs 1 0x8000 start)).map (fun t => (t.gpr 1, t.core.psw)) = some (0x7F00, 0x0010) := by decide
/-- Vector VA26 of 95_test_vectors.md. -/
theorem test_VA26 :
    (run [0x81, 0x50] (gprIs 5 0x0001 start)).map (fun t => (t.gpr 5, t.core.psw)) = some (0xFFFF, 0x0003) := by decide
/-- Vector VA27 of 95_test_vectors.md. -/
theorem test_VA27 :
    (run [0xA1, 0x00] (gprIs 0 0x0080 start)).map (fun t => (t.gpr 0, t.core.psw)) = some (0x0080, 0x0017) := by decide
/-- Vector VA28 of 95_test_vectors.md. -/
theorem test_VA28 :
    (run [0x26, 0x09, 0x0A, 0x00] start).map (fun t => (t.core.sp, t.core.psw, t.core.tfr)) = some (0xFBF6, 0x0001, 0x0000) := by decide
/-- Vector VA29 of 95_test_vectors.md. -/
theorem test_VA29 :
    (run [0x26, 0x09, 0x0A, 0x00] (coreIs (fun c => { c with sp := 0xFA04 }) start)).map (fun t => (t.core.sp, t.core.tfr, t.sys.deferred)) = some (0xF9FA, 0x4000, 2) := by decide
/-- Vector VL1 of 95_test_vectors.md. -/
theorem test_VL1 :
    (run [0x60, 0x12] (gprIs 1 0xF0F0 (gprIs 2 0x8000 start))).map (fun t => (t.gpr 1, t.core.psw)) = some (0x8000, 0x0011) := by decide
/-- Vector VL3 of 95_test_vectors.md. -/
theorem test_VL3 :
    (run [0x67, 0xF0, 0x0F, 0x00] (gprIs 0 0x003C start)).map (fun t => (t.gpr 0, t.core.psw)) = some (0x000C, 0x0000) := by decide
/-- Vector VL4 of 95_test_vectors.md. -/
theorem test_VL4 :
    (run [0x78, 0x00] start).map (fun t => (t.gpr 0, t.core.psw)) = some (0x0000, 0x0008) := by decide
/-- Vector VL5 of 95_test_vectors.md. -/
theorem test_VL5 :
    (run [0x71, 0x23] (gprIs 1 0x8001 start)).map (fun t => (t.gpr 1, t.core.psw)) = some (0x8081, 0x0011) := by decide
/-- Vector VL6 of 95_test_vectors.md. -/
theorem test_VL6 :
    (run [0x50, 0x67] (gprIs 6 0xAAAA (gprIs 7 0xFFFF start))).map (fun t => (t.gpr 6, t.core.psw)) = some (0x5555, 0x0000) := by decide
/-- Vector VL7 of 95_test_vectors.md. -/
theorem test_VL7 :
    (run [0x59, 0x67] (gprIs 3 0x00FF start)).map (fun t => (t.gpr 3, t.core.psw)) = some (0x00F8, 0x0001) := by decide
/-- Vector VL8 of 95_test_vectors.md. -/
theorem test_VL8 :
    (run [0x76, 0x88, 0x02, 0x00] (coreIs (fun c => { c with psw := 0x0800 }) start)).map (fun t => (t.core.psw)) = some (0x0802) := by decide
/-- Vector VC1 of 95_test_vectors.md. -/
theorem test_VC1 :
    (run [0x48, 0x1C] (gprIs 1 0x0005 (gprIs 0 0xFA00 (ramIs 0xFA00 0x8000 start)))).map (fun t => (t.gpr 0, t.gpr 1, t.core.psw)) = some (0xFA02, 0x0005, 0x0017) := by decide
/-- Vector VC3 of 95_test_vectors.md. -/
theorem test_VC3 :
    (run [0x47, 0xF0, 0x80, 0x00] (gprIs 0 0x007F start)).map (fun t => (t.gpr 0, t.core.psw)) = some (0x007F, 0x0017) := by decide
/-- Vector VC4 of 95_test_vectors.md. -/
theorem test_VC4 :
    (run [0x80, 0xA2] (gprIs 2 0x0009 start)).map (fun t => (t.gpr 2, t.core.psw)) = some (0x000A, 0x0003) := by decide
/-- Vector VC5 of 95_test_vectors.md. -/
theorem test_VC5 :
    (run [0x96, 0xF2, 0x10, 0x00] (gprIs 2 0x0010 start)).map (fun t => (t.gpr 2, t.core.psw)) = some (0x0012, 0x0008) := by decide
/-- Vector VC6 of 95_test_vectors.md. -/
theorem test_VC6 :
    (run [0xA0, 0x05] (gprIs 5 0x0001 start)).map (fun t => (t.gpr 5, t.core.psw)) = some (0x0000, 0x0000) := by decide
/-- Vector VC7 of 95_test_vectors.md. -/
theorem test_VC7 :
    (run [0xB2, 0xF0, 0x00, 0xFB] (gprIs 0 0xFA04 (ramIs 0xFB00 0xFA04 start))).map (fun t => (t.gpr 0, t.core.psw)) = some (0xFA02, 0x0008) := by decide
/-- Vector VB1 of 95_test_vectors.md. -/
theorem test_VB1 :
    (run [0x1A, 0x89, 0x20, 0xE0] start).map (fun t => (t.core.syscon, t.core.psw)) = some (0x2000, 0x0000) := by decide
/-- Vector VB2 of 95_test_vectors.md. -/
theorem test_VB2 :
    (run [0x0A, 0xF0, 0x0F, 0x0A] (gprIs 0 0x12F5 start)).map (fun t => (t.gpr 0, t.core.psw)) = some (0x12FA, 0x0000) := by decide
/-- Vector VB3 of 95_test_vectors.md. -/
theorem test_VB3 :
    (run [0xFF, 0xF2] start).map (fun t => (t.gpr 2, t.core.psw)) = some (0x8000, 0x0008) := by decide
/-- Vector VB4 of 95_test_vectors.md. -/
theorem test_VB4 :
    (run [0x6E, 0xA1] (sfrIs Sfr.t3con 0x0040 start)).map (fun t => (t.reg Sfr.t3con, t.core.psw)) = some (0x0000, 0x0001) := by decide
/-- Vector VB5 of 95_test_vectors.md. -/
theorem test_VB5 :
    (run [0xBE, 0x88] (coreIs (fun c => { c with psw := 0x0800 }) start)).map (fun t => (t.core.psw)) = some (0x0000) := by decide
/-- Vector VB6 of 95_test_vectors.md. -/
theorem test_VB6 :
    (run [0x4A, 0xF1, 0xF2, 0x04] (gprIs 1 0x0001 start)).map (fun t => (t.gpr 2, t.core.psw)) = some (0x0010, 0x0001) := by decide
/-- Vector VB7 of 95_test_vectors.md. -/
theorem test_VB7 :
    (run [0x3A, 0xF3, 0xF3, 0x33] (gprIs 3 0x0008 start)).map (fun t => (t.gpr 3, t.core.psw)) = some (0x0000, 0x0001) := by decide
/-- Vector VB8 of 95_test_vectors.md. -/
theorem test_VB8 :
    (run [0x6A, 0xF0, 0xF0, 0x10] (gprIs 0 0x0003 start)).map (fun t => (t.gpr 0, t.core.psw)) = some (0x0003, 0x0006) := by decide
/-- Vector VB9 of 95_test_vectors.md. -/
theorem test_VB9 :
    (run [0x5A, 0xF0, 0xF0, 0x10] (gprIs 0 0x0002 start)).map (fun t => (t.gpr 0, t.core.psw)) = some (0x0003, 0x0005) := by decide
/-- Vector VB10 of 95_test_vectors.md. -/
theorem test_VB10 :
    (run [0x7A, 0xF0, 0xF0, 0x10] (gprIs 0 0x0003 start)).map (fun t => (t.gpr 0, t.core.psw)) = some (0x0002, 0x0006) := by decide
/-- Vector VB11 of 95_test_vectors.md. -/
theorem test_VB11 :
    (run [0x2A, 0xF0, 0xF0, 0x10] start).map (fun t => (t.gpr 0, t.core.psw)) = some (0x0000, 0x0008) := by decide
/-- Vector VB12 of 95_test_vectors.md. -/
theorem test_VB12 :
    (run [0x0F, 0x00] start).map (fun t => (ram 0xFD00 t, t.core.psw)) = some (0x0001, 0x0008) := by decide
/-- Vector VS1 of 95_test_vectors.md. -/
theorem test_VS1 :
    (run [0x7C, 0x21] (gprIs 1 0x8003 start)).map (fun t => (t.gpr 1, t.core.psw)) = some (0x2000, 0x0006) := by decide
/-- Vector VS2 of 95_test_vectors.md. -/
theorem test_VS2 :
    (run [0x5C, 0x10] (gprIs 0 0xC001 start)).map (fun t => (t.gpr 0, t.core.psw)) = some (0x8002, 0x0003) := by decide
/-- Vector VS3 of 95_test_vectors.md. -/
theorem test_VS3 :
    (run [0x3C, 0x81] (gprIs 1 0x1234 start)).map (fun t => (t.gpr 1, t.core.psw)) = some (0x3412, 0x0004) := by decide
/-- Vector VS4 of 95_test_vectors.md. -/
theorem test_VS4 :
    (run [0x1C, 0x12] (gprIs 2 0x8001 start)).map (fun t => (t.gpr 2, t.core.psw)) = some (0x0003, 0x0002) := by decide
/-- Vector VS5 of 95_test_vectors.md. -/
theorem test_VS5 :
    (run [0xBC, 0x23] (gprIs 3 0x8004 start)).map (fun t => (t.gpr 3, t.core.psw)) = some (0xE001, 0x0001) := by decide
/-- Vector VS6 of 95_test_vectors.md. -/
theorem test_VS6 :
    (run [0x2B, 0x45] (gprIs 5 0x00F0 start)).map (fun t => (t.gpr 4, t.core.psw)) = some (0x0008, 0x0000) := by decide
/-- Vector VS7 of 95_test_vectors.md. -/
theorem test_VS7 :
    (run [0x5C, 0x01] (gprIs 1 0x1234 (coreIs (fun c => { c with psw := 0x0006 }) start))).map (fun t => (t.gpr 1, t.core.psw)) = some (0x1234, 0x0000) := by decide
/-- Vector VD1 of 95_test_vectors.md. -/
theorem test_VD1 :
    (run [0xE6, 0xF0, 0x34, 0x12] (coreIs (fun c => { c with psw := 0x001F }) start)).map (fun t => (t.gpr 0, t.core.psw)) = some (0x1234, 0x0006) := by decide
/-- Vector VD2 of 95_test_vectors.md. -/
theorem test_VD2 :
    (run [0xF6, 0xF1, 0x00, 0x00] (gprIs 1 0xBEEF (coreIs (fun c => { c with dpp := #v[4, 1, 2, 3] }) start))).map (fun t => (t.mem.getWord 0x10010000, t.core.psw)) = some (0xBEEF, 0x0001) := by decide
/-- Vector VD3 of 95_test_vectors.md. -/
theorem test_VD3 :
    (run [0x99, 0x01] (gprIs 1 0xFA01 (ramIs 0xFA00 0x8000 start))).map (fun t => (t.gpr 0, t.gpr 1, t.core.psw)) = some (0x0080, 0xFA02, 0x0011) := by decide
/-- Vector VD4 of 95_test_vectors.md. -/
theorem test_VD4 :
    (run [0xD0, 0x20] (gprIs 1 0x0080 start)).map (fun t => (t.gpr 0, t.core.psw)) = some (0xFF80, 0x0001) := by decide
/-- Vector VD5 of 95_test_vectors.md. -/
theorem test_VD5 :
    (run [0xC0, 0x13] (gprIs 0 0xFF00 start)).map (fun t => (t.gpr 3, t.core.psw)) = some (0x00FF, 0x0000) := by decide
/-- Vector VD6 of 95_test_vectors.md. -/
theorem test_VD6 :
    (run [0xA8, 0x01] (gprIs 1 0xFA01 start)).map (fun t => (t.core.tfr, t.core.ip)) = some (0x0004, 0x0002) := by decide
/-- Vector VD7 of 95_test_vectors.md. -/
theorem test_VD7 :
    (run [0xF2, 0xF4, 0x0E, 0xFE] (coreIs (fun c => { c with mdl := 0x2468, mdc := 0x0010 }) start)).map (fun t => (t.gpr 4, t.core.mdc, t.core.psw)) = some (0x2468, 0x0000, 0x0000) := by decide
/-- Vector VK1 of 95_test_vectors.md. -/
theorem test_VK1 :
    (run [0xEC, 0xF1] (gprIs 1 0x1234 start)).map (fun t => (t.core.sp, ram 0xFBFE t, t.core.psw, t.core.tfr)) = some (0xFBFE, 0x1234, 0x0000, 0x0000) := by decide
/-- Vector VK2 of 95_test_vectors.md. -/
theorem test_VK2 :
    (run [0xFC, 0xF2] (coreIs (fun c => { c with sp := 0xFBFE }) (ramIs 0xFBFE 0x8000 start))).map (fun t => (t.gpr 2, t.core.sp, t.core.psw)) = some (0x8000, 0xFC00, 0x0011) := by decide
/-- Vector VK3 of 95_test_vectors.md. -/
theorem test_VK3 :
    (run [0xFC, 0xF2] (ramIs 0xFA00 0x0077 start)).map (fun t => (t.gpr 2, t.core.sp, t.core.tfr)) = some (0x0077, 0xFC02, 0x2000) := by decide
/-- Vector VK4 of 95_test_vectors.md. -/
theorem test_VK4 :
    (run [0xEC, 0xF1] (gprIs 1 0x1234 (coreIs (fun c => { c with sp := 0xFA00 }) start))).map (fun t => (t.core.sp, ram 0xFBFE t, t.core.tfr)) = some (0xF9FE, 0x1234, 0x4000) := by decide
/-- Vector VK5 of 95_test_vectors.md. -/
theorem test_VK5 :
    (run [0xC6, 0x08, 0x00, 0xFB] (coreIs (fun c => { c with psw := 0x001F }) start)).map (fun t => (t.core.cp, ram 0xFBFE t, t.core.psw)) = some (0xFB00, 0xFC00, 0x001F) := by decide
/-- Vector VK6 of 95_test_vectors.md. -/
theorem test_VK6 :
    (run [0xD6, 0x08, 0x12, 0xFE] (coreIs (fun c => { c with sp := 0xFBF6 }) start)).map (fun t => (t.core.cp, t.core.sp, ram 0xFBF4 t)) = some (0xFBF6, 0xFBF4, 0xFC00) := by decide
/-- Vector VK7 of 95_test_vectors.md. -/
theorem test_VK7 :
    (run [0xE6, 0x08, 0x00, 0xF0] (coreIs (fun c => { c with cp := 0xFB00 }) start)).map (fun t => (t.core.cp)) = some (0xFC00) := by decide
/-- Vector VK8 of 95_test_vectors.md. -/
theorem test_VK8 :
    (run [0xE6, 0x09, 0x03, 0x08] start).map (fun t => (t.core.sp)) = some (0xF802) := by decide
/-- Vector VJ1 of 95_test_vectors.md. -/
theorem test_VJ1 :
    (run [0xEA, 0x20, 0x00, 0x02] (coreIs (fun c => { c with ip := 0x0100, psw := 8 }) start)).map (fun t => (t.core.ip)) = some (0x0200) := by decide
/-- Vector VJ1 of 95_test_vectors.md. -/
theorem test_VJ1_not_taken :
    (run [0xEA, 0x20, 0x00, 0x02] (coreIs (fun c => { c with ip := 0x0100 }) start)).map (fun t => (t.core.ip)) = some (0x0104) := by decide
/-- Vector VJ2 of 95_test_vectors.md. -/
theorem test_VJ2 :
    (run [0x9C, 0x04] (gprIs 4 0x1000 (coreIs (fun c => { c with ip := 0x0100 }) start))).map (fun t => (t.core.ip)) = some (0x1000) := by decide
/-- Vector VJ3 of 95_test_vectors.md. -/
theorem test_VJ3 :
    (run [0x9C, 0x04] (gprIs 4 0x1001 start)).map (fun t => (t.core.ip, t.core.tfr)) = some (0x1001, 0x0002) := by decide
/-- Vector VJ4 of 95_test_vectors.md. -/
theorem test_VJ4 :
    (run [0x1D, 0xFE] (coreIs (fun c => { c with ip := 0x0204 }) start)).map (fun t => (t.core.ip)) = some (0x0202) := by decide
/-- Vector VJ5 of 95_test_vectors.md. -/
theorem test_VJ5 :
    (run [0x0D, 0xFF] (coreIs (fun c => { c with ip := 0x020C }) start)).map (fun t => (t.core.ip)) = some (0x020C) := by decide
/-- Vector VJ6 of 95_test_vectors.md. -/
theorem test_VJ6 :
    (run [0xFA, 0x01, 0x00, 0x80] start).map (fun t => (t.core.csp, t.core.ip)) = some (1, 0x8000) := by decide
/-- Vector VJ7 of 95_test_vectors.md. -/
theorem test_VJ7 :
    (run [0x8A, 0x88, 0x03, 0x10] (coreIs (fun c => { c with ip := 0x0300, psw := 2 }) start)).map (fun t => (t.core.ip)) = some (0x030A) := by decide
/-- Vector VJ8 of 95_test_vectors.md. -/
theorem test_VJ8 :
    (run [0x9A, 0x87, 0x04, 0x40] (coreIs (fun c => { c with ip := 0x0400 }) start)).map (fun t => (t.core.ip)) = some (0x040C) := by decide
/-- Vector VJ9 of 95_test_vectors.md. -/
theorem test_VJ9 :
    (run [0xAA, 0x00, 0x01, 0x00] (coreIs (fun c => { c with ip := 0x0500 }) (ramIs 0xFD00 0x0001 start))).map (fun t => (t.core.ip, ram 0xFD00 t)) = some (0x0506, 0x0000) := by decide
/-- Vector VJ9 of 95_test_vectors.md. -/
theorem test_VJ9_again :
    (run [0xAA, 0x00, 0x01, 0x00] (coreIs (fun c => { c with ip := 0x0500 }) start)).map (fun t => (t.core.ip, ram 0xFD00 t)) = some (0x0504, 0x0000) := by decide
/-- Vector VJ10 of 95_test_vectors.md. -/
theorem test_VJ10 :
    (run [0xBA, 0xF0, 0x02, 0xF0] (coreIs (fun c => { c with ip := 0x0600 }) start)).map (fun t => (t.core.ip, t.gpr 0)) = some (0x0608, 0x8000) := by decide
/-- Vector VR1 of 95_test_vectors.md. -/
theorem test_VR1 :
    (run [0xCA, 0x90, 0x00, 0x20] (coreIs (fun c => { c with ip := 0x0100 }) start)).map (fun t => (t.core.ip, ram 0xFBFE t, t.core.sp)) = some (0x2000, 0x0104, 0xFBFE) := by decide
/-- Vector VR1 of 95_test_vectors.md. -/
theorem test_VR1_not_taken :
    (run [0xCA, 0x90, 0x00, 0x20] (coreIs (fun c => { c with ip := 0x0100, psw := 2 }) start)).map (fun t => (t.core.ip, t.core.sp)) = some (0x0104, 0xFC00) := by decide
/-- Vector VR2 of 95_test_vectors.md. -/
theorem test_VR2 :
    (run [0xAB, 0x07] (gprIs 7 0x3000 (coreIs (fun c => { c with ip := 0x0100 }) start))).map (fun t => (t.core.ip, ram 0xFBFE t)) = some (0x3000, 0x0102) := by decide
/-- Vector VR3 of 95_test_vectors.md. -/
theorem test_VR3 :
    (run [0xBB, 0x08] (coreIs (fun c => { c with ip := 0x0100 }) start)).map (fun t => (t.core.ip, ram 0xFBFE t)) = some (0x0112, 0x0102) := by decide
/-- Vector VR4 of 95_test_vectors.md. -/
theorem test_VR4 :
    (run [0xDA, 0x02, 0x00, 0x40] (coreIs (fun c => { c with ip := 0x0200, csp := 1 }) start)).map (fun t => (t.core.ip, t.core.csp, ram 0xFBFE t, ram 0xFBFC t)) = some (0x4000, 2, 0x0001, 0x0204) := by decide
/-- Vector VR5 of 95_test_vectors.md. -/
theorem test_VR5 :
    (run [0xE2, 0xF5, 0x00, 0x08] (gprIs 5 0x00AA (coreIs (fun c => { c with ip := 0x0300 }) start))).map (fun t => (t.core.ip, ram 0xFBFE t, ram 0xFBFC t, t.core.psw)) = some (0x0800, 0x00AA, 0x0304, 0x0000) := by decide
/-- Vector VR6 of 95_test_vectors.md. -/
theorem test_VR6 :
    (run [0x9B, 0x20] (coreIs (fun c => { c with ip := 0x1000, csp := 1, psw := 0x0800 }) start)).map (fun t => (t.core.ip, t.core.csp, ram 0xFBFE t, ram 0xFBFC t, ram 0xFBFA t, t.core.psw)) = some (0x0040, 0, 0x0800, 0x0001, 0x1002, 0x0800) := by decide
/-- Vector VR7 of 95_test_vectors.md. -/
theorem test_VR7 :
    (run [0x9B, 0x20] (coreIs (fun c => { c with ip := 0x1000, csp := 1, psw := 0x0800, syscon := 0x0800 }) start)).map (fun t => (t.core.ip, t.core.csp, ram 0xFBFE t, ram 0xFBFC t, t.core.sp)) = some (0x0040, 1, 0x0800, 0x1002, 0xFBFC) := by decide
/-- Vector VR8 of 95_test_vectors.md. -/
theorem test_VR8 :
    (run [0xCB, 0x00] (coreIs (fun c => { c with sp := 0xFBFE }) (ramIs 0xFBFE 0x0104 start))).map (fun t => (t.core.ip, t.core.sp)) = some (0x0104, 0xFC00) := by decide
/-- Vector VR9 of 95_test_vectors.md. -/
theorem test_VR9 :
    (run [0xDB, 0x00] (coreIs (fun c => { c with sp := 0xFBFC }) (ramIs 0xFBFC 0x0204 (ramIs 0xFBFE 0x0003 start)))).map (fun t => (t.core.ip, t.core.csp, t.core.sp)) = some (0x0204, 3, 0xFC00) := by decide
/-- Vector VR10 of 95_test_vectors.md. -/
theorem test_VR10 :
    (run [0xEB, 0xF5] (coreIs (fun c => { c with sp := 0xFBFC }) (ramIs 0xFBFC 0x0304 (ramIs 0xFBFE 0x00AA start)))).map (fun t => (t.core.ip, t.gpr 5, t.core.sp)) = some (0x0304, 0x00AA, 0xFC00) := by decide
/-- Vector VR11 of 95_test_vectors.md. -/
theorem test_VR11 :
    (run [0xFB, 0x88] (coreIs (fun c => { c with sp := 0xFBFA, psw := 0xF800 }) (ramIs 0xFBFA 0x1002 (ramIs 0xFBFC 0x0001 (ramIs 0xFBFE 0x0800 start))))).map (fun t => (t.core.ip, t.core.csp, t.core.psw, t.core.sp)) = some (0x1002, 1, 0x0800, 0xFC00) := by decide
/-- Vector VY1 of 95_test_vectors.md. -/
theorem test_VY1 :
    (run [0xCC, 0x00] (coreIs (fun c => { c with ip := 0x0100 }) start)).map (fun t => (t.core.ip, t.mem)) = some (0x0102, []) := by decide
/-- Vector VY2 of 95_test_vectors.md. -/
theorem test_VY2 :
    (run [0xA5, 0x5A, 0xA5, 0xA5] start).map (fun t => (t.sys.wdtDisabled, t.core.ip)) = some (true, 0x0004) := by decide
/-- Vector VY4 of 95_test_vectors.md. -/
theorem test_VY4 :
    (run [0xA7, 0x58, 0xA7, 0xA7] (sfrIs Sfr.wdtcon 0x8003 (sfrIs Sfr.wdt 0x1234 start))).map (fun t => (t.reg Sfr.wdt, t.reg Sfr.wdtcon, t.sys.diswdtOpen)) = some (0x8000, 0x8001, false) := by decide
/-- Vector VY5 of 95_test_vectors.md. -/
theorem test_VY5 :
    (run [0xB5, 0x4A, 0xB5, 0xB5] start).map (fun t => (t.sys.einitDone, t.sys.rstout)) = some (true, true) := by decide
/-- Vector VY7 of 95_test_vectors.md. -/
theorem test_VY7 :
    (run [0xB7, 0x48, 0xB7, 0xB7] start).map (fun t => (t.sys.resetReq)) = some (some .software) := by decide
/-- Vector VY8 of 95_test_vectors.md. -/
theorem test_VY8 :
    (run [0x97, 0x68, 0x97, 0x97] start).map (fun t => (t.sys.cpu, t.core.ip)) = some (.running, 0x0004) := by decide
/-- Vector VY9 of 95_test_vectors.md. -/
theorem test_VY9 :
    (run [0x87, 0x78, 0x87, 0x87] start).map (fun t => (t.sys.cpu)) = some (.idle) := by decide
/-- Vector VY10 of 95_test_vectors.md. -/
theorem test_VY10 :
    (run [0xD1, 0x20] start).map (fun t => (t.sys.ext)) = some ({ count := 3, esfr := false, ovr := .none }) := by decide
/-- Vector VY11 of 95_test_vectors.md. -/
theorem test_VY11 :
    (run [0xD1, 0xB0] start).map (fun t => (t.sys.ext)) = some ({ count := 4, esfr := true, ovr := .none }) := by decide
/-- Vector VY12 of 95_test_vectors.md. -/
theorem test_VY12 :
    (run [0xDC, 0x4F] (gprIs 15 0x0040 start)).map (fun t => (t.sys.ext)) = some ({ count := 1, esfr := false, ovr := .page 0x40 }) := by decide
/-- Vector VY13 of 95_test_vectors.md. -/
theorem test_VY13 :
    (run [0xD7, 0x50, 0x40, 0x00] start).map (fun t => (t.sys.ext)) = some ({ count := 2, esfr := false, ovr := .page 0x40 }) := by decide
/-- Vector VY14 of 95_test_vectors.md. -/
theorem test_VY14 :
    (run [0xD7, 0x00, 0x0F, 0x00] start).map (fun t => (t.sys.ext)) = some ({ count := 1, esfr := false, ovr := .seg 0x0F }) := by decide
/-- The flags of vectors VJ9 and VJ10; E, V and C stay (47_jump.md R408, R409). -/
theorem test_VJ9_flags : withFlags 0 (bitTestFlags 0 true) = 0x0001 ∧ withFlags 0 (bitTestFlags 0 false) = 0x0008 ∧
    withFlags 0x0016 (bitTestFlags 0x0016 true) = 0x0017 := by decide
/-- A word access to 00'FE13h raises ILLOPA and is no write of SP (40_arithmetic.md R241). -/
theorem test_odd_sp : start.memIsSp 0xFE12 = true ∧ start.memIsSp 0xFE13 = false := by decide
/-- External memory is reached through the chip select of its window (R625, R626). -/
theorem test_chip_select : (start.cellAt false 0x002000, (sfrIs (Sfr.buscon 0) 0x86C0 start).cellAt false 0x002000) =
    (some (0x10002000), some 0x2000) := by decide
/-- The 16-bit multiplexed bus of 70_reset_and_hazards.md R915 (b) takes PORT0 and leaves PORT1 (R606, R607). -/
theorem test_bus_ports : start.busUsesP0 false = true ∧ start.busUsesP1 = false := by decide


/-! ## The hypotheses of every statement are met, each clause at a boundary of its range -/

/-- The word at a data address can be read. -/
def readable (a : Word) (s : State) : Bool := (s.wordAt a).isSome && (s.byteAt a).isSome

/-- Words and bytes can be written at a data address. -/
def writable (a : Word) (s : State) : Bool := (s.wordStored a 0xA55A).isSome && (s.byteStored a 0x5A).isSome

/-- A register operand can be read and written. -/
def regUsable (q : Byte) (s : State) : Bool :=
  (s.regWord q).isSome && (s.regByte q).isSome && (s.regWordStored q 0xA55A).isSome && (s.regByteStored q 0x5A).isSome

/-- A bit operand can be read and written back. -/
def bitUsable (b : Byte) (s : State) : Bool := (s.bitWord b).isSome && (s.bitStored b 0xA55A 1).isSome

/-- The flags all set. -/
def allFlags : Flags := { e := true, z := true, v := true, c := true, n := true }

/-- Three pushes and three pops stay in the internal RAM. -/
def stacked (s : State) : Bool :=
  (s.stackAt s.spDown).isSome && (s.stackAt s.spDown2).isSome && (s.stackAt s.spDown3).isSome &&
    (s.stackAt s.effSp).isSome && (s.stackAt s.spUp).isSome && (s.stackAt s.spUp2).isSome

/-- SP in the middle of the stack. -/
def midStack : State := coreIs (fun c => { c with sp := 0xFB80 }) start

/-- The code bytes at the program counter. -/
def codeIs (l : List Byte) (s : State) : State := s.placeCode s.core.ip l

/-- A step would fetch these bytes. -/
def fetches (l : List Byte) (s : State) : Bool :=
  match fetch s with
  | .ok (some b, _) => b == l
  | _ => false

/-- Nothing is due at the boundary. -/
def quiet (s : State) : Bool := s.boundary.isNone

/-- The bank at the lowest and the highest place in the internal RAM. -/
def lowBank : State := coreIs (fun c => { c with cp := 0xF600 }) start
/-- The highest place. -/
def highBank : State := coreIs (fun c => { c with cp := 0xFDE0 }) start
/-- Segmentation disabled. -/
def flat (s : State) : State := coreIs (fun c => { c with syscon := c.syscon ||| 0x0800 }) s

/-- A multiply or divide is to be resumed. -/
def resumed (f : MulFrame) : State :=
  let s := coreIs (fun c => { c with mdh := f.kMdh, mdl := f.kMdl, mdc := f.kMdc }) (gprIs 1 f.opA (gprIs 2 f.opB start))
  { s with sys := { s.sys with resume := true, suspended := [f] } }

/-- A hardware trap has held it up since: MULIP was 0 at the last RETI. -/
def heldUp (f : MulFrame) : State := { resumed f with sys := { (resumed f).sys with resume := false, suspended := (resumed f).heldFrames } }

/-- The interrupted instruction stands at the reset address. -/
def frameOf (m : MulInstr) (a b h l : Word) : MulFrame :=
  { instr := m, addr := 0, mdh := h, mdl := l, opA := a, opB := b, kMdh := 0x1234, kMdl := 0x5678, kMdc := 0x10
    held := false }

/-- PEC channel 0 is set up. -/
def pecSet (con src dst : Word) : State := sfrIs (Sfr.pecc 0) con (ramIs 0xFCE0 src (ramIs 0xFCE2 dst start))

/-- CC8 requests on level `l` with group `g`, and interrupts are enabled. -/
def requesting (l g : Nat) (s : State) : State :=
  sfrIs 452 (BitVec.ofNat 16 (0xC0 + 4 * l + g)) (coreIs (fun c => { c with psw := 0x0800 }) s)

/-- The hypotheses of `Obligations.AdditionFlags`: carry in and carry flag set. -/
theorem witness_AdditionFlags :
    carryIn true 0x0002 = 1 ∧
    (0x0002 : Word).getLsbD 1 = true := by decide
/-- The hypotheses of `Obligations.QuotientsExact`: a quotient and an overflow of each division. -/
theorem witness_QuotientsExact :
    divDiv 0 0xFFF9 2 = some (0xFFFD, 0xFFFF) ∧
    divDiv 0 0x8000 0xFFFF = none ∧
    divDivu 0 7 2 = some (3, 1) ∧
    divDivu 0 7 0 = none ∧
    divDivl 0xFFFF 0xFFF9 2 = some (0xFFFD, 0xFFFF) ∧
    divDivl 0x7FFF 0 1 = none ∧
    divDivlu 1 0 2 = some (0x8000, 0) ∧
    divDivlu 2 0 2 = none := by decide
/-- The hypotheses of `Obligations.ShiftResults`: the largest count and the highest bit. -/
theorem witness_ShiftResults :
    (15 : Nat) < 16 := by decide
/-- The hypotheses of `Obligations.AluRegister`: a bank at the reset place, and at both ends of the internal RAM. -/
theorem witness_AluRegister :
    start.bank = true ∧
    lowBank.bank = true ∧
    highBank.bank = true := by decide
/-- The hypotheses of `Obligations.ComplementNegate`: a bank at the reset place, and at both ends of the internal RAM. -/
theorem witness_ComplementNegate :
    start.bank = true ∧
    lowBank.bank = true ∧
    highBank.bank = true := by decide
/-- The hypotheses of `Obligations.ShiftInstructions`: a bank at the reset place, and at both ends of the internal RAM. -/
theorem witness_ShiftInstructions :
    start.bank = true ∧
    lowBank.bank = true ∧
    highBank.bank = true := by decide
/-- The hypotheses of `Obligations.AluIndirect`: pointers to memory, to a register, to an odd address. -/
theorem witness_AluIndirect :
    start.bank = true ∧
    lowBank.bank = true ∧
    highBank.bank = true ∧
    readable (start.gpr (pointerOf 3)) start = true ∧
    readable 0x7FFF start = true ∧
    readable 0xFE00 start = true ∧
    readable 0xFF1F start = true := by decide
/-- The hypotheses of `Obligations.AluPostIncrement`: both cases of the pointer and the data register. -/
theorem witness_AluPostIncrement :
    start.bank = true ∧
    lowBank.bank = true ∧
    highBank.bank = true ∧
    readable (start.gpr (pointerOf 3)) start = true ∧
    readable 0x7FFF start = true ∧
    readable 0xFE00 start = true ∧
    readable 0xFF1F start = true ∧
    wordView.within 1 (pointerOf 0) = false ∧
    wordView.within 0 (pointerOf 0) = true ∧
    byteView.within 2 (pointerOf 0) = false ∧
    byteView.within 1 (pointerOf 0) = true := by decide
/-- The hypotheses of `Obligations.AluRegisterImmediate`: a GPR, the first and another register. -/
theorem witness_AluRegisterImmediate :
    regUsable 0xF0 start = true ∧
    regUsable 0xFF start = true ∧
    regUsable 0x00 start = true ∧
    regUsable 0x09 start = true ∧
    (start.regNum 0x09 = Sfr.sp ∧ isGprCode 0x09 = false) ∧
    isGprCode 0xF0 = true ∧
    isGprCode 0xEF = false ∧
    (start.withFlags allFlags).regIsSp 0x09 = true ∧
    ((start.withFlags allFlags).sfrStored Sfr.sp 0).isSome = true := by decide
/-- The hypotheses of `Obligations.AluRegisterMemory`: the same, with a memory operand. -/
theorem witness_AluRegisterMemory :
    regUsable 0xF0 start = true ∧
    regUsable 0xFF start = true ∧
    regUsable 0x00 start = true ∧
    regUsable 0x09 start = true ∧
    (start.regNum 0x09 = Sfr.sp ∧ isGprCode 0x09 = false) ∧
    isGprCode 0xF0 = true ∧
    isGprCode 0xEF = false ∧
    (start.withFlags allFlags).regIsSp 0x09 = true ∧
    ((start.withFlags allFlags).sfrStored Sfr.sp 0).isSome = true ∧
    readable 0x2000 start = true ∧
    readable 0xFE00 start = true := by decide
/-- The hypotheses of `Obligations.AluMemoryRegister`: memory, a register and an odd address as the destination. -/
theorem witness_AluMemoryRegister :
    regUsable 0xF0 start = true ∧
    regUsable 0xFF start = true ∧
    regUsable 0x00 start = true ∧
    regUsable 0x09 start = true ∧
    (start.regNum 0x09 = Sfr.sp ∧ isGprCode 0x09 = false) ∧
    isGprCode 0xF0 = true ∧
    isGprCode 0xEF = false ∧
    (start.withFlags allFlags).regIsSp 0x09 = true ∧
    ((start.withFlags allFlags).sfrStored Sfr.sp 0).isSome = true ∧
    wordView.cell start 0x2000 = some 0x10002000 ∧
    byteView.cell start 0x2001 = some 0x10002001 ∧
    writable 0x2001 (start.withFlags allFlags) = true ∧
    writable 0xFE12 (start.withFlags allFlags) = true ∧
    writable 0xFA00 (start.withFlags allFlags) = true ∧
    readable 0x2000 start = true := by decide
/-- The hypotheses of `Obligations.Compare`: all the forms of the operands. -/
theorem witness_Compare :
    start.bank = true ∧
    lowBank.bank = true ∧
    highBank.bank = true ∧
    readable (start.gpr (pointerOf 3)) start = true ∧
    readable 0x7FFF start = true ∧
    readable 0xFE00 start = true ∧
    readable 0xFF1F start = true ∧
    regUsable 0xF0 start = true ∧
    regUsable 0xFF start = true ∧
    regUsable 0x00 start = true ∧
    regUsable 0x09 start = true ∧
    (start.regNum 0x09 = Sfr.sp ∧ isGprCode 0x09 = false) ∧
    isGprCode 0xF0 = true ∧
    isGprCode 0xEF = false ∧
    (start.withFlags allFlags).regIsSp 0x09 = true ∧
    ((start.withFlags allFlags).sfrStored Sfr.sp 0).isSome = true := by decide
/-- The hypotheses of `Obligations.CompareLoop`: a memory operand, even and odd. -/
theorem witness_CompareLoop :
    start.bank = true ∧
    lowBank.bank = true ∧
    highBank.bank = true ∧
    readable 0x2000 start = true ∧
    readable 0x2001 start = true := by decide
/-- The hypotheses of `Obligations.Multiply`: no multiplication to resume. -/
theorem witness_Multiply :
    start.bank = true ∧
    lowBank.bank = true ∧
    highBank.bank = true ∧
    start.sys.resume = false ∧
    start.suspendedFrame { op := .mul, rn := 1, rm := 2 } (start.gpr 1) (start.gpr 2) = none ∧
    start.suspendedFrame { op := .mulu, rn := 1, rm := 2 } (start.gpr 1) (start.gpr 2) = none := by decide
/-- The hypotheses of `Obligations.Divide`: both outcomes of each division. -/
theorem witness_Divide :
    start.bank = true ∧
    lowBank.bank = true ∧
    highBank.bank = true ∧
    start.sys.resume = false ∧
    start.suspendedFrame { op := .div, rn := 1, rm := 1 } (start.gpr 1) (start.gpr 1) = none ∧
    start.suspendedFrame { op := .divu, rn := 1, rm := 1 } (start.gpr 1) (start.gpr 1) = none ∧
    start.suspendedFrame { op := .divl, rn := 1, rm := 1 } (start.gpr 1) (start.gpr 1) = none ∧
    start.suspendedFrame { op := .divlu, rn := 1, rm := 1 } (start.gpr 1) (start.gpr 1) = none ∧
    divDiv start.core.mdh start.core.mdl (start.gpr 1) = none ∧
    (divDiv start.core.mdh start.core.mdl ((gprIs 1 1 start).gpr 1)).isSome = true ∧
    (divDivu start.core.mdh start.core.mdl 1).isSome = true ∧
    (divDivl start.core.mdh start.core.mdl 1).isSome = true ∧
    (divDivlu start.core.mdh start.core.mdl 1).isSome = true ∧
    (divDivu 0 0 0 = none ∧ divDivl 0 0 0 = none ∧ divDivlu 0 0 0 = none) := by decide
/-- The hypotheses of `Obligations.ResumedMultiplyDivide`: each of the six, suspended, and one that a trap held up. -/
theorem witness_ResumedMultiplyDivide :
    (((resumed (frameOf { op := .mul, rn := 1, rm := 2 } 3 5 0 0)).bank = true ∧
    (resumed (frameOf { op := .mul, rn := 1, rm := 2 } 3 5 0 0)).suspendedFrame { op := .mul, rn := 1, rm := 2 } ((resumed (frameOf { op := .mul, rn := 1, rm := 2 } 3 5 0 0)).gpr 1) ((resumed (frameOf { op := .mul, rn := 1, rm := 2 } 3 5 0 0)).gpr 2) = some (frameOf { op := .mul, rn := 1, rm := 2 } 3 5 0 0))) ∧
    (((resumed (frameOf { op := .mulu, rn := 1, rm := 2 } 3 5 0 0)).bank = true ∧
    (resumed (frameOf { op := .mulu, rn := 1, rm := 2 } 3 5 0 0)).suspendedFrame { op := .mulu, rn := 1, rm := 2 } ((resumed (frameOf { op := .mulu, rn := 1, rm := 2 } 3 5 0 0)).gpr 1) ((resumed (frameOf { op := .mulu, rn := 1, rm := 2 } 3 5 0 0)).gpr 2) = some (frameOf { op := .mulu, rn := 1, rm := 2 } 3 5 0 0))) ∧
    (((resumed (frameOf { op := .div, rn := 1, rm := 1 } 2 2 0 7)).bank = true ∧
    (resumed (frameOf { op := .div, rn := 1, rm := 1 } 2 2 0 7)).suspendedFrame { op := .div, rn := 1, rm := 1 } ((resumed (frameOf { op := .div, rn := 1, rm := 1 } 2 2 0 7)).gpr 1) ((resumed (frameOf { op := .div, rn := 1, rm := 1 } 2 2 0 7)).gpr 1) = some (frameOf { op := .div, rn := 1, rm := 1 } 2 2 0 7))) ∧
    (((resumed (frameOf { op := .divu, rn := 1, rm := 1 } 2 2 0 7)).bank = true ∧
    (resumed (frameOf { op := .divu, rn := 1, rm := 1 } 2 2 0 7)).suspendedFrame { op := .divu, rn := 1, rm := 1 } ((resumed (frameOf { op := .divu, rn := 1, rm := 1 } 2 2 0 7)).gpr 1) ((resumed (frameOf { op := .divu, rn := 1, rm := 1 } 2 2 0 7)).gpr 1) = some (frameOf { op := .divu, rn := 1, rm := 1 } 2 2 0 7))) ∧
    (((resumed (frameOf { op := .divl, rn := 1, rm := 1 } 2 2 0 7)).bank = true ∧
    (resumed (frameOf { op := .divl, rn := 1, rm := 1 } 2 2 0 7)).suspendedFrame { op := .divl, rn := 1, rm := 1 } ((resumed (frameOf { op := .divl, rn := 1, rm := 1 } 2 2 0 7)).gpr 1) ((resumed (frameOf { op := .divl, rn := 1, rm := 1 } 2 2 0 7)).gpr 1) = some (frameOf { op := .divl, rn := 1, rm := 1 } 2 2 0 7))) ∧
    (((resumed (frameOf { op := .divlu, rn := 1, rm := 1 } 2 2 0 7)).bank = true ∧
    (resumed (frameOf { op := .divlu, rn := 1, rm := 1 } 2 2 0 7)).suspendedFrame { op := .divlu, rn := 1, rm := 1 } ((resumed (frameOf { op := .divlu, rn := 1, rm := 1 } 2 2 0 7)).gpr 1) ((resumed (frameOf { op := .divlu, rn := 1, rm := 1 } 2 2 0 7)).gpr 1) = some (frameOf { op := .divlu, rn := 1, rm := 1 } 2 2 0 7))) ∧
    ((heldUp (frameOf { op := .div, rn := 1, rm := 1 } 2 2 0 7)).sys.resume = false ∧
    ((heldUp (frameOf { op := .div, rn := 1, rm := 1 } 2 2 0 7)).suspendedFrame { op := .div, rn := 1, rm := 1 } 2 2).isSome = true) ∧
    divDiv 0 7 2 = some (3, 1) ∧
    divDivu 0 7 0 = none := by decide
/-- The hypotheses of `Obligations.MoveToRegister`: all the forms of the operands. -/
theorem witness_MoveToRegister :
    start.bank = true ∧
    lowBank.bank = true ∧
    highBank.bank = true ∧
    readable (start.gpr (pointerOf 3)) start = true ∧
    readable 0x7FFF start = true ∧
    readable 0xFE00 start = true ∧
    readable 0xFF1F start = true ∧
    regUsable 0xF0 start = true ∧
    regUsable 0xFF start = true ∧
    regUsable 0x00 start = true ∧
    regUsable 0x09 start = true ∧
    (start.regNum 0x09 = Sfr.sp ∧ isGprCode 0x09 = false) ∧
    isGprCode 0xF0 = true ∧
    isGprCode 0xEF = false ∧
    (start.withFlags allFlags).regIsSp 0x09 = true ∧
    ((start.withFlags allFlags).sfrStored Sfr.sp 0).isSome = true := by decide
/-- The hypotheses of `Obligations.MovePointers`: pointer and data register apart and together, destinations in memory and in a register. -/
theorem witness_MovePointers :
    start.bank = true ∧
    lowBank.bank = true ∧
    highBank.bank = true ∧
    readable (start.gpr (pointerOf 3)) start = true ∧
    readable 0x7FFF start = true ∧
    readable 0xFE00 start = true ∧
    readable 0xFF1F start = true ∧
    wordView.cell start 0x2000 = some 0x10002000 ∧
    byteView.cell start 0x2001 = some 0x10002001 ∧
    writable 0x2001 (start.withFlags allFlags) = true ∧
    writable 0xFE12 (start.withFlags allFlags) = true ∧
    writable 0xFA00 (start.withFlags allFlags) = true ∧
    wordView.within 1 0 = false ∧
    wordView.within 1 1 = true ∧
    byteView.within 3 1 = true ∧
    (∀ c, c ∈ wordView.cells 0x10002000 → c ∉ wordCells (start.gprAt 1)) ∧
    (start.storeWord 0x10002000 1).bank = true := by decide
/-- The hypotheses of `Obligations.MoveToMemory`: destinations in memory, in a register and at an odd address. -/
theorem witness_MoveToMemory :
    start.bank = true ∧
    lowBank.bank = true ∧
    highBank.bank = true ∧
    readable (start.gpr (pointerOf 3)) start = true ∧
    readable 0x7FFF start = true ∧
    readable 0xFE00 start = true ∧
    readable 0xFF1F start = true ∧
    regUsable 0xF0 start = true ∧
    regUsable 0xFF start = true ∧
    regUsable 0x00 start = true ∧
    regUsable 0x09 start = true ∧
    (start.regNum 0x09 = Sfr.sp ∧ isGprCode 0x09 = false) ∧
    isGprCode 0xF0 = true ∧
    isGprCode 0xEF = false ∧
    (start.withFlags allFlags).regIsSp 0x09 = true ∧
    ((start.withFlags allFlags).sfrStored Sfr.sp 0).isSome = true ∧
    wordView.cell start 0x2000 = some 0x10002000 ∧
    byteView.cell start 0x2001 = some 0x10002001 ∧
    writable 0x2001 (start.withFlags allFlags) = true ∧
    writable 0xFE12 (start.withFlags allFlags) = true ∧
    writable 0xFA00 (start.withFlags allFlags) = true := by decide
/-- The hypotheses of `Obligations.MoveExtended`: the same. -/
theorem witness_MoveExtended :
    start.bank = true ∧
    lowBank.bank = true ∧
    highBank.bank = true ∧
    regUsable 0xF0 start = true ∧
    regUsable 0xFF start = true ∧
    regUsable 0x00 start = true ∧
    regUsable 0x09 start = true ∧
    (start.regNum 0x09 = Sfr.sp ∧ isGprCode 0x09 = false) ∧
    isGprCode 0xF0 = true ∧
    isGprCode 0xEF = false ∧
    (start.withFlags allFlags).regIsSp 0x09 = true ∧
    ((start.withFlags allFlags).sfrStored Sfr.sp 0).isSome = true ∧
    wordView.cell start 0x2000 = some 0x10002000 ∧
    byteView.cell start 0x2001 = some 0x10002001 ∧
    writable 0x2001 (start.withFlags allFlags) = true ∧
    writable 0xFE12 (start.withFlags allFlags) = true ∧
    writable 0xFA00 (start.withFlags allFlags) = true ∧
    (start.byteAt 0x2001).isSome = true ∧
    (start.regByte 0xF0).isSome = true := by decide
/-- The hypotheses of `Obligations.BitSetAndClear`: bits of memory, of registers and of GPRs, at the ends of each range. -/
theorem witness_BitSetAndClear :
    bitUsable 0x00 start = true ∧
    bitUsable 0x7F start = true ∧
    bitUsable 0x88 start = true ∧
    bitUsable 0xF0 start = true ∧
    bitUsable 0xFF start = true ∧
    bitUsable 0x88 (start.withFlags allFlags) = true ∧
    start.bitCell 0x00 = some (iramCell 0xFD00) ∧
    start.bitCell 0x7F = some (iramCell 0xFDFE) ∧
    start.bitCell 0x80 = none ∧
    start.bitCell 0xFF = some (start.gprAt 15) := by decide
/-- The hypotheses of `Obligations.BitToBit`: two words, and one word twice. -/
theorem witness_BitToBit :
    bitUsable 0x00 start = true ∧
    bitUsable 0x7F start = true ∧
    bitUsable 0x88 start = true ∧
    bitUsable 0xF0 start = true ∧
    bitUsable 0xFF start = true ∧
    bitUsable 0x88 (start.withFlags allFlags) = true ∧
    start.bitCell 0x00 = some (iramCell 0xFD00) ∧
    start.bitCell 0x7F = some (iramCell 0xFDFE) ∧
    start.bitCell 0x80 = none ∧
    start.bitCell 0xFF = some (start.gprAt 15) ∧
    start.bitWord 0x00 = some (0, start) ∧
    start.bitWord 0xFF = some (0, start) ∧
    (0x00 : Byte) ≠ 0xFF := by decide
/-- The hypotheses of `Obligations.BitFields`: the same. -/
theorem witness_BitFields :
    bitUsable 0x00 start = true ∧
    bitUsable 0x7F start = true ∧
    bitUsable 0x88 start = true ∧
    bitUsable 0xF0 start = true ∧
    bitUsable 0xFF start = true ∧
    bitUsable 0x88 (start.withFlags allFlags) = true ∧
    start.bitCell 0x00 = some (iramCell 0xFD00) ∧
    start.bitCell 0x7F = some (iramCell 0xFDFE) ∧
    start.bitCell 0x80 = none ∧
    start.bitCell 0xFF = some (start.gprAt 15) := by decide
/-- The hypotheses of `Obligations.Jumps`: conditions met and not met. -/
theorem witness_Jumps :
    start.holds .uc = true ∧
    start.holds .z = false ∧
    (coreIs (fun c => { c with psw := 8 }) start).holds .z = true ∧
    (coreIs (fun c => { c with psw := 8 }) start).holds .nz = false ∧
    start.bank = true ∧
    lowBank.bank = true ∧
    highBank.bank = true := by decide
/-- The hypotheses of `Obligations.JumpOnBit`: a bit set and a bit clear. -/
theorem witness_JumpOnBit :
    bitUsable 0x00 start = true ∧
    bitUsable 0x7F start = true ∧
    bitUsable 0x88 start = true ∧
    bitUsable 0xF0 start = true ∧
    bitUsable 0xFF start = true ∧
    bitUsable 0x88 (start.withFlags allFlags) = true ∧
    start.bitCell 0x00 = some (iramCell 0xFD00) ∧
    start.bitCell 0x7F = some (iramCell 0xFDFE) ∧
    start.bitCell 0x80 = none ∧
    start.bitCell 0xFF = some (start.gprAt 15) ∧
    (start.bitWord 0x00).map (fun p => wbit p.1 15) = some false ∧
    ((ramIs 0xFD00 0x8000 start).bitWord 0x00).map (fun p => wbit p.1 15) = some true := by decide
/-- The hypotheses of `Obligations.JumpAndChangeBit`: the same, with a write-back to memory and to a register. -/
theorem witness_JumpAndChangeBit :
    bitUsable 0x00 start = true ∧
    bitUsable 0x7F start = true ∧
    bitUsable 0x88 start = true ∧
    bitUsable 0xF0 start = true ∧
    bitUsable 0xFF start = true ∧
    bitUsable 0x88 (start.withFlags allFlags) = true ∧
    start.bitCell 0x00 = some (iramCell 0xFD00) ∧
    start.bitCell 0x7F = some (iramCell 0xFDFE) ∧
    start.bitCell 0x80 = none ∧
    start.bitCell 0xFF = some (start.gprAt 15) ∧
    (start.bitWord 0x00).map (fun p => wbit p.1 15) = some false ∧
    ((ramIs 0xFD00 0x8000 start).bitWord 0x00).map (fun p => wbit p.1 15) = some true := by decide
/-- The hypotheses of `Obligations.Calls`: conditions met and not met; the stack at its bottom and in its middle. -/
theorem witness_Calls :
    stacked midStack = true ∧
    (start.stackAt start.spDown).isSome = true ∧
    (start.stackAt start.effSp).isSome = true ∧
    start.bank = true ∧
    lowBank.bank = true ∧
    highBank.bank = true ∧
    start.holds .uc = true ∧
    start.holds .z = false := by decide
/-- The hypotheses of `Obligations.FarCalls`: a GPR and a register as the parameter. -/
theorem witness_FarCalls :
    stacked midStack = true ∧
    (start.stackAt start.spDown).isSome = true ∧
    (start.stackAt start.effSp).isSome = true ∧
    midStack.regWord 0xF0 = some (0, midStack) ∧
    (midStack.regWord 0x00).isSome = true := by decide
/-- The hypotheses of `Obligations.TrapInstruction`: segmentation enabled and disabled. -/
theorem witness_TrapInstruction :
    stacked midStack = true ∧
    (start.stackAt start.spDown).isSome = true ∧
    (start.stackAt start.effSp).isSome = true ∧
    midStack.sgtdis = false ∧
    (flat midStack).sgtdis = true ∧
    stacked (flat midStack) = true := by decide
/-- The hypotheses of `Obligations.Returns`: a GPR and a register as the destination. -/
theorem witness_Returns :
    stacked midStack = true ∧
    (start.stackAt start.spDown).isSome = true ∧
    (start.stackAt start.effSp).isSome = true ∧
    start.bank = true ∧
    lowBank.bank = true ∧
    highBank.bank = true ∧
    isGprCode 0xF0 = true ∧
    (((midStack.popped.popped).withFlags allFlags).regWordStored 0x00 0).isSome = true ∧
    (((midStack.popped.popped).withFlags allFlags).regWordStored 0xF0 0).isSome = true := by decide
/-- The hypotheses of `Obligations.ReturnFromInterrupt`: segmentation enabled and disabled. -/
theorem witness_ReturnFromInterrupt :
    stacked midStack = true ∧
    (start.stackAt start.spDown).isSome = true ∧
    (start.stackAt start.effSp).isSome = true ∧
    midStack.sgtdis = false ∧
    (flat midStack).sgtdis = true ∧
    stacked (flat midStack) = true := by decide
/-- The hypotheses of `Obligations.StackInstructions`: a GPR, a register, SP itself. -/
theorem witness_StackInstructions :
    stacked midStack = true ∧
    (start.stackAt start.spDown).isSome = true ∧
    (start.stackAt start.effSp).isSome = true ∧
    (midStack.regWord 0xF0).isSome = true ∧
    (midStack.regWord 0x09).isSome = true ∧
    ((midStack.wordAt 0x2000).isSome = true ∧ midStack.even 0x2000 = true) ∧
    midStack.even 0x2001 = false ∧
    midStack.bank = true ∧
    ((midStack.withFlags allFlags).regWordStored 0x09 0).isSome = true := by decide
/-- The hypotheses of `Obligations.PushAndPop`: a cell that is no stack word of the push, and one that is; the stack at its bottom and in its middle. -/
theorem witness_PushAndPop :
    stacked midStack = true ∧
    (start.stackAt start.spDown).isSome = true ∧
    (start.stackAt start.effSp).isSome = true ∧
    (0xFB00 : Nat) ∉ wordCells (iramCell 0xFBFE) ∧
    iramCell 0xFBFE ∈ wordCells (iramCell 0xFBFE) := by decide
/-- The hypotheses of `Obligations.SystemControl`: both levels of NMI; DISWDT before and after its end; another register. -/
theorem witness_SystemControl :
    start.env.nmi = true ∧
    { start with env := { start.env with nmi := false } }.env.nmi = false ∧
    start.sys.diswdtOpen = true ∧
    { start with sys := { start.sys with diswdtOpen := false } }.sys.diswdtOpen = false ∧
    (Sfr.t0 ≠ Sfr.wdt ∧ Sfr.t0 ≠ Sfr.wdtcon) := by decide
/-- The hypotheses of `Obligations.NullOperation`: the least second byte. -/
theorem witness_NullOperation :
    (0x01 : Byte) ≠ 0x00 := by decide
/-- The hypotheses of `Obligations.LockedSequences`: the bank. -/
theorem witness_LockedSequences :
    start.bank = true ∧
    lowBank.bank = true ∧
    highBank.bank = true := by decide
/-- The hypotheses of `Obligations.ConstantRegisters`: outside an EXTR sequence. -/
theorem witness_ConstantRegisters :
    start.sys.ext.esfr = false := by decide
/-- The hypotheses of `Obligations.ContextPointerWrite`: both cases of bits 11 to 9. -/
theorem witness_ContextPointerWrite :
    (0x0200 : Word).extractLsb' 9 3 ≠ 0 ∧
    (0x01FF : Word).extractLsb' 9 3 = 0 := by decide
/-- The hypotheses of `Obligations.CoreRegisterAccess`: before and after EINIT; a register with and one without a read rule of its own. -/
theorem witness_CoreRegisterAccess :
    start.sys.einitDone = false ∧
    (start.coreValue Sfr.t3con = none ∧ start.portOf Sfr.t3con = none ∧ Sfr.t3con ≠ Sfr.p5 ∧ Sfr.t3con ≠ Sfr.s0bg ∧
    Sfr.t3con ≠ Sfr.sscbr ∧ Sfr.t3con ≠ Sfr.ssccon ∧ Sfr.t3con ≠ Sfr.ssctb) ∧
    (Sfr.t3con ≠ Sfr.mdl ∧ Sfr.t3con ≠ Sfr.s0rbuf ∧ Sfr.t3con ≠ Sfr.sscrb ∧ Sfr.t3con ≠ Sfr.addat ∧ Sfr.t3con ≠ Sfr.addat2) ∧
    (0x01FF : Word).extractLsb' 9 3 = 0 ∧
    { start with sys := { start.sys with einitDone := true } }.sys.einitDone = true := by decide
/-- The hypotheses of `Obligations.PlainRegisterWrites`: a plain register. -/
theorem witness_PlainRegisterWrites :
    start.coreValue Sfr.t3con = none ∧
    plainSfr Sfr.t3con = true ∧
    start.coreValue Sfr.adcon = none := by decide
/-- The hypotheses of `Obligations.MisalignedWord`: the lowest and the highest odd address. -/
theorem witness_MisalignedWord :
    (start.dataAddr 0x0001).toNat % 2 = 1 ∧
    (start.dataAddr 0xFFFF).toNat % 2 = 1 ∧
    wbit start.core.tfr 2 = false := by decide
/-- The hypotheses of `Obligations.RegisterStops`: a code without a register, a reserved word, a port that carries the bus. -/
theorem witness_RegisterStops :
    isGprCode 0x05 = false ∧
    16 ≤ (start.regNum 0x05).val ∧
    (start.regNum 0x05).row? = none ∧
    isGprCode 0x0F = false ∧
    ({ start with sys := { start.sys with ext := { count := 1, esfr := true, ovr := .none } } }.regNum 0x0F).val < 16 ∧
    start.sys.ext.esfr = false ∧
    start.busUsesP0 false = true := by decide
/-- The hypotheses of `Obligations.ByteRegisters`: the first and the last of the registers with byte halves. -/
theorem witness_ByteRegisters :
    (0 : Gpr).toNat < 8 ∧
    (7 : Gpr).toNat < 8 := by decide
/-- The hypotheses of `Obligations.StackInsideRam`: the smallest and the largest stack. -/
theorem witness_StackInsideRam :
    stackBits 0 = some 9 ∧
    stackBits 4 = some 10 ∧
    start.effSp.toNat % 2 = 0 ∧
    fieldNat start.effMap.syscon 13 3 < 5 ∧
    fieldNat (coreIs (fun c => { c with syscon := 0x8000 }) start).effMap.syscon 13 3 < 5 := by decide
/-- The hypotheses of `Obligations.StepRunsDecoded`: a plain instruction and a multiplication outside an enabled interrupt system. -/
theorem witness_StepRunsDecoded :
    quiet start = true ∧
    wbit start.core.ip 0 = false ∧
    fetches [0x00, 0x00] start = true ∧
    decode [0x00, 0x00] = .instr (.addRR 0 0) [] ∧
    (mulInstr (.addRR 0 0) = none ∧ start.sys.resume = false) ∧
    quiet (codeIs [0x0B, 0x12] start) = true ∧
    fetches [0x0B, 0x12] (codeIs [0x0B, 0x12] start) = true ∧
    decode [0x0B, 0x12] = .instr (.mul 1 2) [] ∧
    (mulInstr (.mul 1 2) ≠ none ∧ (codeIs [0x0B, 0x12] start).mulOpen = false) := by decide
/-- The hypotheses of `Obligations.UndefinedInstruction`: an undefined opcode and a damaged protected instruction. -/
theorem witness_UndefinedInstruction :
    quiet (codeIs [0x8B, 0x00] start) = true ∧
    fetches [0x8B, 0x00] (codeIs [0x8B, 0x00] start) = true ∧
    decode [0x8B, 0x00] = .undefinedOpcode ∧
    quiet (codeIs [0xB7, 0x48, 0xB7, 0xB6] start) = true ∧
    fetches [0xB7, 0x48, 0xB7, 0xB6] (codeIs [0xB7, 0x48, 0xB7, 0xB6] start) = true ∧
    decode [0xB7, 0x48, 0xB7, 0xB6] = .protectionFault ∧
    (((start.raise 0x0080).core.tfr &&& 0x0080 ≠ 0 ∧ (start.raise 0x0080).sys.treq &&& 0x0080 ≠ 0)) ∧
    (((coreIs (fun c => { c with tfr := 0x0080 }) start).core.tfr &&& 0x0080 ≠ 0 ∧
    (coreIs (fun c => { c with tfr := 0x0080 }) start).sys.treq &&& 0x0080 = 0)) ∧
    (start.sys.inA = false ∧ start.sys.inB = false ∧ start.core.tfr &&& 0x0080 = 0 ∧ start.core.tfr &&& 0x0008 = 0) ∧
    classATrap (start.raise 0x0080).sys.treq = none := by decide
/-- The hypotheses of `Obligations.TrapEntry`: a class B trap and a class A trap, with and without segmentation. -/
theorem witness_TrapEntry :
    ((midStack.raise 0x0080).sys.resetReq = none ∧ (midStack.raise 0x0080).sys.cpu = .running ∧ (midStack.raise 0x0080).unitStop = none ∧ (midStack.raise 0x0080).sys.waiting = false ∧ (midStack.raise 0x0080).sys.pecWait = none) ∧
    (midStack.raise 0x0080).trapDue = some (0x0A, 0x008F, false) ∧
    (stacked (midStack.raise 0x0080) = true ∧ (midStack.raise 0x0080).sgtdis = false) ∧
    ((flat (midStack.raise 0x8000)).sys.resetReq = none ∧ (flat (midStack.raise 0x8000)).sys.cpu = .running ∧ (flat (midStack.raise 0x8000)).unitStop = none ∧ (flat (midStack.raise 0x8000)).sys.waiting = false ∧ (flat (midStack.raise 0x8000)).sys.pecWait = none) ∧
    (flat (midStack.raise 0x8000)).trapDue = some (0x02, 0x8000, true) ∧
    (stacked (flat (midStack.raise 0x8000)) = true ∧ (flat (midStack.raise 0x8000)).sgtdis = true) := by decide
/-- The hypotheses of `Obligations.InterruptEntry`: the lowest and the highest level, with and without segmentation. -/
theorem witness_InterruptEntry :
    ((requesting 1 0 midStack).sys.resetReq = none ∧ (requesting 1 0 midStack).sys.cpu = .running ∧ (requesting 1 0 midStack).unitStop = none ∧ (requesting 1 0 midStack).sys.waiting = false ∧ (requesting 1 0 midStack).sys.pecWait = none) ∧
    ((requesting 1 0 midStack).trapDue = none ∧ (requesting 1 0 midStack).roundOpen = true ∧ (requesting 1 0 midStack).service = .interrupt 452 0x18 1) ∧
    (((requesting 1 0 midStack).setRegBit 452 7 false).sgtdis = false ∧ stacked ((requesting 1 0 midStack).setRegBit 452 7 false) = true) ∧
    ((requesting 15 3 (flat midStack)).sys.resetReq = none ∧ (requesting 15 3 (flat midStack)).sys.cpu = .running ∧ (requesting 15 3 (flat midStack)).unitStop = none ∧ (requesting 15 3 (flat midStack)).sys.waiting = false ∧ (requesting 15 3 (flat midStack)).sys.pecWait = none) ∧
    ((requesting 15 3 (flat midStack)).trapDue = none ∧ (requesting 15 3 (flat midStack)).roundOpen = true ∧ (requesting 15 3 (flat midStack)).service = .interrupt 452 0x18 15) ∧
    (((requesting 15 3 (flat midStack)).setRegBit 452 7 false).sgtdis = true ∧ stacked ((requesting 15 3 (flat midStack)).setRegBit 452 7 false) = true) := by decide
/-- The hypotheses of `Obligations.HighestRequestServed`: the same requests; another source is enabled on the lower level; PSW just written, with the old values open and closed. -/
theorem witness_HighestRequestServed :
    (sfrIs 453 0x00C4 (requesting 15 3 (flat midStack))).sys.pswHist = none ∧
    (let s : State := { (requesting 15 3 (flat midStack)) with sys := { (requesting 15 3 (flat midStack)).sys with pswHist := some { ien := true, ilvl := 14, age := 1 } } }
    s.service = .interrupt 452 0x18 15) ∧
    (let s : State := { (requesting 15 3 (flat midStack)) with sys := { (requesting 15 3 (flat midStack)).sys with pswHist := some { ien := true, ilvl := 15, age := 1 } } }
    s.service = .none) ∧
    (let s : State := { (requesting 15 3 (flat midStack)) with sys := { (requesting 15 3 (flat midStack)).sys with pswHist := some { ien := false, ilvl := 0, age := 2 } } }
    s.service = .interrupt 452 0x18 15) ∧
    (sfrIs 453 0x00C4 (requesting 15 3 (flat midStack))).service = .interrupt 452 0x18 15 ∧
    ((453 : Sfr) ≠ 452 ∧ (453, 0x19) ∈ nodes) ∧
    ((sfrIs 453 0x00C4 (requesting 15 3 (flat midStack))).regBit 453 7 = true ∧ (sfrIs 453 0x00C4 (requesting 15 3 (flat midStack))).regBit 453 6 = true) := by decide
/-- The hypotheses of `Obligations.PecTransfer`: words with counts 1, 2 and 255 between the lowest and the highest word, to external memory, a byte from it; a register as the source; an odd pointer; a served request. -/
theorem witness_PecTransfer :
    (((pecSet 0x0201 0xF600 0xFDFE).pecLeft 0 ≠ 0 ∧ (pecSet 0x0201 0xF600 0xFDFE).srcp 0 = 0xF600 ∧ (pecSet 0x0201 0xF600 0xFDFE).dstp 0 = 0xFDFE ∧
    wbit ((pecSet 0x0201 0xF600 0xFDFE).reg (Sfr.pecc 0)) 8 = false ∧ (pecSet 0x0201 0xF600 0xFDFE).cellAt false (segment0 ((pecSet 0x0201 0xF600 0xFDFE).srcp 0)) = some (iramCell 0xF600) ∧
    (pecSet 0x0201 0xF600 0xFDFE).writableAt (segment0 ((pecSet 0x0201 0xF600 0xFDFE).dstp 0)) = some (iramCell 0xFDFE) ∧ (∀ c ∈ wordCells (iramCell 0xFDFE), c ∉ pecCells 0))) ∧
    (((pecSet 0x0402 0xFDFE 0xF600).pecLeft 0 ≠ 0 ∧ (pecSet 0x0402 0xFDFE 0xF600).srcp 0 = 0xFDFE ∧ (pecSet 0x0402 0xFDFE 0xF600).dstp 0 = 0xF600 ∧
    wbit ((pecSet 0x0402 0xFDFE 0xF600).reg (Sfr.pecc 0)) 8 = false ∧ (pecSet 0x0402 0xFDFE 0xF600).cellAt false (segment0 ((pecSet 0x0402 0xFDFE 0xF600).srcp 0)) = some (iramCell 0xFDFE) ∧
    (pecSet 0x0402 0xFDFE 0xF600).writableAt (segment0 ((pecSet 0x0402 0xFDFE 0xF600).dstp 0)) = some (iramCell 0xF600) ∧ (∀ c ∈ wordCells (iramCell 0xF600), c ∉ pecCells 0))) ∧
    (((pecSet 0x00FF 0xFA00 0x2000).pecLeft 0 ≠ 0 ∧ (pecSet 0x00FF 0xFA00 0x2000).srcp 0 = 0xFA00 ∧ (pecSet 0x00FF 0xFA00 0x2000).dstp 0 = 0x2000 ∧
    wbit ((pecSet 0x00FF 0xFA00 0x2000).reg (Sfr.pecc 0)) 8 = false ∧ (pecSet 0x00FF 0xFA00 0x2000).cellAt false (segment0 ((pecSet 0x00FF 0xFA00 0x2000).srcp 0)) = some (iramCell 0xFA00) ∧
    (pecSet 0x00FF 0xFA00 0x2000).writableAt (segment0 ((pecSet 0x00FF 0xFA00 0x2000).dstp 0)) = some (start.csCell 1 0x002000) ∧ (∀ c ∈ wordCells (start.csCell 1 0x002000), c ∉ pecCells 0))) ∧
    (((pecSet 0x0301 0x2001 0xF601).pecLeft 0 ≠ 0 ∧ (pecSet 0x0301 0x2001 0xF601).srcp 0 = 0x2001 ∧ (pecSet 0x0301 0x2001 0xF601).dstp 0 = 0xF601 ∧
    wbit ((pecSet 0x0301 0x2001 0xF601).reg (Sfr.pecc 0)) 8 = true ∧ (pecSet 0x0301 0x2001 0xF601).cellAt false (segment0 ((pecSet 0x0301 0x2001 0xF601).srcp 0)) = some (start.csCell 1 0x002001) ∧
    (pecSet 0x0301 0x2001 0xF601).writableAt (segment0 ((pecSet 0x0301 0x2001 0xF601).dstp 0)) = some (iramCell 0xF601) ∧ iramCell 0xF601 ∉ pecCells 0)) ∧
    (452 : Sfr) ≠ Sfr.pecc 0 ∧
    (((pecSet 0x0001 0xFEA0 0xFA00).wordIn (segment0 ((pecSet 0x0001 0xFEA0 0xFA00).srcp 0))).isSome = true ∧
    ((pecSet 0x0001 0xFEA0 0xFA00).wordInto (segment0 ((pecSet 0x0001 0xFEA0 0xFA00).dstp 0)) 0).isSome = true) ∧
    (((pecSet 0x0101 0xFEA0 0xFA00).byteIn (segment0 ((pecSet 0x0101 0xFEA0 0xFA00).srcp 0))).isSome = true ∧
    ((pecSet 0x0101 0xFEA0 0xFA00).byteInto (segment0 ((pecSet 0x0101 0xFEA0 0xFA00).dstp 0)) 0).isSome = true) ∧
    (wbit ((pecSet 0x0001 0xFA01 0xFA00).srcp 0) 0 || wbit ((pecSet 0x0001 0xFA01 0xFA00).dstp 0) 0) = true := by decide
/-- The hypotheses of `Obligations.PecTransfer_round`: the same: a request on level 14 in the middle of a program. -/
theorem witness_PecTransfer_round :
    (let s := requesting 14 0 (pecSet 0x0201 0xF600 0xFDFE)
    s.sys.resetReq = none ∧ s.sys.cpu = .running ∧ s.unitStop = none ∧ s.sys.waiting = false ∧
    s.sys.pecWait = none ∧ s.trapDue = none ∧ s.roundOpen = true ∧ s.service = .pec 452 0 ∧ s.pecLeft 0 ≠ 0) := by decide
/-- The hypotheses of `Obligations.LockedSequenceHolds`: a locked sequence with a class B trap, its last instruction, and the one before. -/
theorem witness_LockedSequenceHolds :
    (let s : State := { midStack.raise 0x0080 with sys := { (midStack.raise 0x0080).sys with ext := { count := 1, esfr := false, ovr := .none } } }
    s.sys.ext.count ≠ 0 ∧ s.trapDue = some (0x0A, 0x008F, false)) ∧
    ((1 : Nat) < 2 ∧ (1 : Nat) ≤ 1) ∧
    isExtension .nop = false := by decide
/-- The hypotheses of `Obligations.SoftwareReset`: after SRST. -/
theorem witness_SoftwareReset :
    { start with sys := { start.sys with resetReq := some .software } }.sys.resetReq = some .software ∧
    (start.bus.undo = none ∧ start.sys.waiting = false ∧ start.sys.pecWait = none) := by decide
/-- The hypotheses of `Obligations.StoppedStates`: power down; idle with a request that is not accepted, locked, with a trap, with an interrupt, with a PEC request, and with nothing. -/
theorem witness_StoppedStates :
    (let s : State := { start with sys := { start.sys with cpu := .powerDown } }
    s.sys.resetReq = none ∧ s.sys.cpu = .powerDown) ∧
    (let s : State := sfrIs 452 0x00C4 { start with sys := { start.sys with cpu := .idle } }
    s.sys.resetReq = none ∧ s.sys.cpu = .idle ∧ s.unitStop = none ∧ s.sys.pecWait = none ∧
    (452, 0x18) ∈ nodes ∧ s.regBit 452 7 = true ∧ s.regBit 452 6 = true ∧ s.trapDue = none ∧ s.service = .none) ∧
    (let s : State := { start with sys := { start.sys with cpu := .idle, idleLocked := true, nmiEdge := true } }
    s.sys.resetReq = none ∧ s.unitStop = none ∧ s.sys.pecWait = none ∧ s.sys.nmiEdge = true) ∧
    (let s : State := { start.raise 0x8000 with sys := { (start.raise 0x8000).sys with cpu := .idle } }
    s.sys.resetReq = none ∧ s.unitStop = none ∧ s.sys.pecWait = none ∧ s.sys.idleLocked = false ∧
    s.trapDue = some (2, 0x8000, true) ∧ wbit s.sys.treq 15 = true) ∧
    (let s : State := requesting 1 0 { start with sys := { start.sys with cpu := .idle } }
    s.sys.cpu = .idle ∧ s.unitStop = none ∧ s.sys.pecWait = none ∧ s.sys.idleLocked = false ∧ s.trapDue = none ∧
    s.service = .interrupt 452 0x18 1) ∧
    (let s : State := requesting 14 0 (sfrIs (Sfr.pecc 0) 1 { start with sys := { start.sys with cpu := .idle } })
    s.sys.cpu = .idle ∧ s.unitStop = none ∧ s.sys.pecWait = none ∧ s.sys.idleLocked = false ∧ s.trapDue = none ∧
    s.service = .pec 452 0) ∧
    (let s : State := { start with sys := { start.sys with cpu := .idle } }
    s.sys.resetReq = none ∧ s.unitStop = none ∧ s.sys.pecWait = none ∧ (∀ n ∈ nodes, s.regBit n.1 7 = false) ∧
    s.sys.nmiEdge = false ∧ wbit s.sys.treq 15 = false ∧ s.trapDue = none) := by decide
/-- The hypotheses of `Obligations.DecodeEncode`: the ends of a range of an operand. -/
theorem witness_DecodeEncode :
    Instr.wf (.atomic 1) = true ∧
    Instr.wf (.atomic 4) = true ∧
    Instr.wf (.addRR 0 15) = true ∧
    Instr.wf (.extsImm 0xFF 4) = true := by decide
/-- The hypotheses of `Obligations.StepKeepsLock`: the longest and the shortest sequence, with a step that goes on. -/
theorem witness_StepKeepsLock :
    ((4 : Nat) ≤ 4 ∧ start.sys.ext.count ≤ 4) := by decide

/-- The invariant holds at reset. -/
theorem witness_StepKeepsInv : start.Inv := by
  unfold State.Inv Core.hardwired
  decide

/-- The step answers a next state. -/
def goesOn (s : State) : Bool := match step s with | .next _ => true | _ => false

/-- Placed instructions run as the first one after reset; a refused word is refused. -/
theorem test_first_step : goesOn start = true ∧ goesOn (start.withFetchWord 32 0x1234F0E6) = true ∧
    goesOn (start.withFetchWord 16 0x1020) = true ∧ goesOn (start.withFetchWord 16 0x01CC) = false := by decide

/-- A double-word instruction across the end of a page is refused, one of one word there is not (20_memory.md R103). -/
theorem test_page_split :
    (let s := coreIs (fun c => { c with ip := 0x3FFE }) start
    goesOn (codeIs [0xE6, 0xF0, 0x34, 0x12] s) = false ∧ goesOn (codeIs [0xCC, 0x00] s) = true) := by decide

/-- The samples of two latching edges two clocks apart are judged each for itself (62_peripherals_b.md R747). -/
theorem test_phase :
    (let s := { start with ssc := { start.ssc with samples := [true, false, false, false], sinceLatch := [0, 2] } }
    wbit (s.sscPhase true).ssc.status 10 = true ∧ (s.sscPhase true).ssc.sinceLatch = [1]) := by decide

/-- Window 1 switched on: JMPS into it ends the old mapping there, JMPS elsewhere does not (70_reset_and_hazards.md
R927). -/
theorem test_absolute :
    (let s := sfrIs (Sfr.addrsel 0) 0x0100 start
    let u := coreIs (fun c => { c with csp := 1 }) (s.storeSfr (Sfr.buscon 1) 0x0480 0xFFFF)
    let e := coreIs (fun c => { c with csp := 2 }) u
    (u.sys.oldMaps.any (u.mayFetchOld · 0), (e.reached 0).sys.oldMaps.any (u.mayFetchOld · 0),
      (u.reached 0x10).sys.oldMaps.any (u.mayFetchOld · 0), u.sys.oldMaps.any (e.mayFetchOld · 0)) =
      (true, true, false, false)) := by decide

/-- A word access ends with the byte at its odd address on an 8-bit bus, not on a 16-bit one (61_peripherals_a.md R634). -/
theorem test_narrow_bus :
    (let m := { start.busMap with buscon := Vector.ofFn (fun i => if i.val = 1 then 0x0480 else 0x0400) }
    let last := fun x word => (busAccess m (.ext x) 0x010000 word).map (·.addr)
    (last 0 true, last 1 true, last 0 false)) = (some 0x010001, some 0x010000, some 0x010000) := by decide

/-- The first fetch after reset is what the bus lines show, over an 8-bit bus its second cycle; code fetched already is not
fetched again, so that a later access stays on the lines (61_peripherals_a.md R634, R635, 20_memory.md R151). -/
theorem test_first_fetch :
    (let wide := start.linesAfter start.busMap 0 2
    let narrow := { start.busMap with buscon := start.busMap.buscon.set 0 0x0640 }
    let s := { start with bus := { start.bus with fetched := 8 } }
    (wide.addr, wide.bhe, (start.linesAfter narrow 0 2).addr, (start.linesAfter narrow 0 1).addr, start.codeSpan start.busMap 4 0)
      = (0, false, 1, 0, 8) ∧ (s.fetchUpTo s.busMap 4 4).lines = s.bus.lines) :=
  ⟨by decide, fetchUpTo_lines (by decide) (by decide) (by decide)⟩

/-- A branch drops what was fetched ahead; a cache jump taken again finds its target instruction in the jump cache
(70_reset_and_hazards.md R931). -/
theorem test_refill :
    (let s := { start with bus := { start.bus with fetched := 8 } }
    let hit := fun (u : State) => ((u.fillCache 0x10).branch 0x10).refill.bus.fetched
    (s.branch 0x10).refill.bus.fetched = 0 ∧ hit s = 0 ∧ hit (s.fillCache 0x10) = 2 ∧ (s.advance 2).fetchedAhead = 6) := by
  decide

/-- A write to BUSCONx or ADDRSELx moves no chip select without an access (61_peripherals_a.md R635). -/
theorem test_cs_held :
    (let l : BusLines := { addr := 0x010000, window := some (1, 0x0400), bhe := true }
    let s := { start with bus := { start.bus with lines := l } }
    let u := (s.storeSfr (Sfr.buscon 1) 0xC000 0xFFFF).storeSfr (Sfr.addrsel 0) 0x0200 0xFFFF
    (List.finRange 5).map s.csActive = (List.finRange 5).map u.csActive ∧ u.csActive 1 = true) := by decide

/-- CHNR changed in the sample phase of an injected conversion switches its channel, later not; ADDAT2 takes the value in
both cases (63_peripherals_c.md R829). -/
theorem test_channel_switch :
    (let s := { start with adc := { start.adc with phase := .injected, sampleLeft := 1 } }
    let u := s.storeSfr Sfr.addat2 0x5000 0xFFFF
    let late := { s with adc := { s.adc with sampleLeft := 0 } }.storeSfr Sfr.addat2 0x5000 0xFFFF
    (u.reg Sfr.addat2, u.adc.cur, late.reg Sfr.addat2, late.adc.cur)) = (0x5000, 5, 0x5000, 0) := by decide

/-- With SGTDIS = 1 every fetch, a vector's too, is in segment 0 (10_state.md R31, 20_memory.md R121). -/
theorem test_flat_fetch :
    (coreIs (fun c => { c with csp := 1, ip := 0x008C, syscon := 0x0800 }) start).pcAddr = 0x00008C := by decide

/-- RXD0 low at the first sample under S0R = 1 is no falling edge; after a high sample it is (62_peripherals_b.md R725). -/
theorem test_receive_edge :
    (let s := sfrIs Sfr.s0con 0x8011 start
    let high := { s with asc := { s.asc with rxPrev := some true } }
    ((s.ascRxAsync false).asc.rx, (high.ascRxAsync false).asc.rx, (sfrIs Sfr.s0con 0x0011 high).ascTick.asc.rxPrev) =
      (.idle, .frame 0 0 [], none)) := by decide

/-- RSTIN replaces a pending watchdog reset; a power-on reset stays one (log 78). -/
theorem test_reset_sources :
    (let due := fun r => { start with sys := { start.sys with resetReq := some r } }
    (((due .watchdog).event (.rstin false)).sys.resetReq, ((due (.hardware true)).event (.rstin false)).sys.resetReq)) =
      (some (.hardware false), some (.hardware true)) := by decide

/-- A reception that brings the error counts below 96 resets EWRN; an error in busoff does not end it (64_can.md R866). -/
theorem test_can_counts :
    (let s := { start with can := { start.can with recCount := 100 } }
    let s := (s.setCanByte 0 0).setCanByte 1 0x40
    let f : CanFrame := { ide := false, rtr := false, id := 0, dlc := 0, data := Vector.replicate 8 0 }
    let u := (s.canBusError 3 0 256).setCanByte 0 0
    ((s.canRxFrame f 95 0).canByte 1, (s.canBusError 3 0 256).canByte 0, (u.canBusError 3 0 0).canByte 1)) =
      (0x10, 0x01, 0xC3) := by decide

/-- Software that clears the flag NMI in the state of an edge wins, and the request is withdrawn (20_memory.md R134). -/
theorem test_tfr_race :
    (let s := (start.storeSfr Sfr.tfr 0 0xFFFF).raise 0x8000
    let u := s.overwrite Sfr.tfr 0 0x8000
    (s.core.tfr, s.sys.treq, u.core.tfr, u.sys.treq)) = (0x8000, 0x8000, 0, 0) := by decide

/-- A bit instruction on P2 writes its bit only, on P3 the word; in S0CON a change of S0OE may be lost (20_memory.md R134,
43_bit.md R312). -/
theorem test_write_back :
    (Sfr.p2.backMask 0x0001, Sfr.p3.backMask 0x0001, Sfr.s0con.backMask 0x0001, Sfr.s0con.bitLost 0x0010 &&& 0x0410,
      Sfr.s0con.bitLost 0x0001 &&& 0x0010) = (0x0001, 0xFFFF, 0x0001, 0x0410, 0) := by decide

/-- `decodeTableWord` lays the bits out in the order of the table. -/
theorem test_table_word : decodeTableWord 32 0x1234F0E6 = some (.movRegImm 0xF0 0x1234) ∧
    decodeTableWord 16 0x00CC = some .nop ∧ decodeTableWord 16 0x01CC = none := by decide


end Sys2Proof.Tests
end

namespace Sys2Proof.Machine

/-! ## The peripheral units leave the CPU alone

One equation for each function of a unit, so that `simp` carries them up to `units_cpu`, what one clock of all of them
leaves. -/

/-- What no unit beside the CPU changes: the core, the hidden CPU state, memory, the environment and the free values. -/
def State.cpu (s : State) : Core × Sys × Memory × Env × Nat := (s.core, s.sys, s.mem, s.env, s.free)

theorem cpu_eq_iff {s t : State} : t.cpu = s.cpu ↔ SameCpu s t := by
  simp only [State.cpu, SameCpu, Prod.mk.injEq]

@[simp] theorem cpu_mk (c : Core) (y : Sys) (f : SfrFile) (m : Memory) (g : Gpt) (a : Asc) (x : Ssc) (cc : Capcom)
    (p : Pwm) (d : Adc) (cn : Can) (b : Bus) (k : Nat) (e : Env) (n : Nat) :
    State.cpu ⟨c, y, f, m, g, a, x, cc, p, d, cn, b, k, e, n⟩ = (c, y, m, e, n) := rfl

@[simp] theorem cpu_eta (s : State) : (s.core, s.sys, s.mem, s.env, s.free) = s.cpu := rfl

@[simp] theorem setReg_cpu (s : State) (r : Sfr) (v : Word) : (s.setReg r v).cpu = s.cpu := rfl
@[simp] theorem setRegBit_cpu (s : State) (r : Sfr) (i : Nat) (b : Bool) : (s.setRegBit r i b).cpu = s.cpu := rfl
@[simp] theorem request_cpu (s : State) (r : Sfr) : (s.request r).cpu = s.cpu := rfl

/-! ### ASC0 -/

@[simp] theorem ascFrameDone_cpu (s : State) (d : Word) (b : Bool) : (s.ascFrameDone d b).cpu = s.cpu := by
  simp only [State.ascFrameDone, apply_ite State.cpu, request_cpu, setReg_cpu, cpu_mk, cpu_eta, ite_self]
@[simp] theorem ascLoad_cpu (s : State) : s.ascLoad.cpu = s.cpu := by
  simp [State.ascLoad, apply_ite State.cpu]
@[simp] theorem ascTxEnd_cpu (s : State) : s.ascTxEnd.cpu = s.cpu := by
  simp [State.ascTxEnd, apply_ite State.cpu]
@[simp] theorem ascTxBit_cpu (s : State) : s.ascTxBit.cpu = s.cpu := by
  unfold State.ascTxBit
  split
  · rfl
  · simp [apply_ite State.cpu]
@[simp] theorem ascTxSync_cpu (s : State) : s.ascTxSync.cpu = s.cpu := by
  unfold State.ascTxSync
  split
  · rfl
  · simp [apply_ite State.cpu]
@[simp] theorem ascRxAsync_cpu (s : State) (b : Bool) : (s.ascRxAsync b).cpu = s.cpu := by
  unfold State.ascRxAsync
  dsimp only
  split <;> simp [apply_ite State.cpu]
@[simp] theorem ascRxSync_cpu (s : State) (b : Bool) : (s.ascRxSync b).cpu = s.cpu := by
  unfold State.ascRxSync
  dsimp only
  split <;> simp [apply_ite State.cpu]
@[simp] theorem ascPulse_cpu (s : State) : s.ascPulse.cpu = s.cpu := by
  simp [State.ascPulse, apply_ite State.cpu]
@[simp] theorem ascUnderflow_cpu (s : State) : s.ascUnderflow.cpu = s.cpu := by
  simp [State.ascUnderflow, apply_ite State.cpu]
@[simp] theorem ascTick_cpu (s : State) : s.ascTick.cpu = s.cpu := by
  simp [State.ascTick, apply_ite State.cpu]
@[simp] theorem writeS0tbuf_cpu (s : State) (v : Word) : (s.writeS0tbuf v).cpu = s.cpu := rfl
@[simp] theorem writeS0bg_cpu (s : State) (v : Word) : (s.writeS0bg v).cpu = s.cpu := by
  simp [State.writeS0bg, apply_ite State.cpu]
@[simp] theorem busLatches_cpu (s : State) : s.busLatches.cpu = s.cpu := rfl

/-! ### CAN -/

@[simp] theorem setCanByte_cpu (s : State) (k : Nat) (v : Byte) : (s.setCanByte k v).cpu = s.cpu := rfl
@[simp] theorem setCanElem_cpu (s : State) (n : Nat) (e : CanElem) (b : Bool) : (s.setCanElem n e b).cpu = s.cpu := rfl
@[simp] theorem setCanId_cpu (s : State) (k : Nat) (v : BitVec 29) : (s.setCanId k v).cpu = s.cpu := rfl
@[simp] theorem canUpdate_cpu (s : State) : s.canUpdate.cpu = s.cpu := cpu_eq_iff.mpr (canUpdate_sameCpu s)
@[simp] theorem canStatus_cpu (s : State) (rx tx : Bool) (lec : BitVec 3) : (s.canStatus rx tx lec).cpu = s.cpu := by
  simp [State.canStatus, apply_ite State.cpu]
@[simp] theorem canPend_cpu (s : State) (n : Nat) (e : CanElem) : (s.canPend n e).cpu = s.cpu := by
  simp [State.canPend, apply_ite State.cpu]

theorem foldl_cpu {α : Type} {f : State → α → State} (h : ∀ t x, (f t x).cpu = t.cpu) (l : List α) (s : State) :
    (l.foldl f s).cpu = s.cpu := by
  induction l generalizing s with
  | nil => rfl
  | cons x l ih => rw [List.foldl_cons, ih, h]

@[simp] theorem canStore_cpu (s : State) (n : Nat) (f : CanFrame) : (s.canStore n f).cpu = s.cpu := by
  unfold State.canStore
  dsimp only
  rw [canPend_cpu, setCanElem_cpu, foldl_cpu (fun t i => setCanByte_cpu t _ _)]
  simp [apply_ite State.cpu]
@[simp] theorem canRemote_cpu (s : State) (n : Nat) (f : CanFrame) : (s.canRemote n f).cpu = s.cpu := by
  simp [State.canRemote, apply_ite State.cpu]
@[simp] theorem canStore15_cpu (s : State) (f : CanFrame) : (s.canStore15 f).cpu = s.cpu := by
  simp [State.canStore15, apply_ite State.cpu]
@[simp] theorem canCount_cpu (s : State) (r t : Nat) : (s.canCount r t).cpu = s.cpu := by
  simp [State.canCount, apply_ite State.cpu]
@[simp] theorem canErrorState_cpu (s : State) : s.canErrorState.cpu = s.cpu := by
  simp [State.canErrorState, apply_ite State.cpu]
@[simp] theorem canRxFrame_cpu (s : State) (f : CanFrame) (r t : Nat) : (s.canRxFrame f r t).cpu = s.cpu := by
  unfold State.canRxFrame
  dsimp only
  cases (List.range 15).find? (fun i => s.canAccept (i + 1) f) <;> simp [apply_ite State.cpu]
@[simp] theorem canTxDone_cpu (s : State) (r t : Nat) : (s.canTxDone r t).cpu = s.cpu := by
  unfold State.canTxDone
  split
  · rfl
  · simp [apply_ite State.cpu]
@[simp] theorem canBusError_cpu (s : State) (c : BitVec 3) (r t : Nat) : (s.canBusError c r t).cpu = s.cpu := by
  simp [State.canBusError, apply_ite State.cpu]
@[simp] theorem canRecessive_cpu (s : State) : s.canRecessive.cpu = s.cpu := by
  simp [State.canRecessive, apply_ite State.cpu]
@[simp] theorem canRecover_cpu (s : State) : s.canRecover.cpu = s.cpu := by
  simp [State.canRecover, apply_ite State.cpu]
@[simp] theorem canTick_cpu (s : State) : s.canTick.cpu = s.cpu := by
  unfold State.canTick
  split
  · rfl
  split
  · rfl
  split
  · rfl
  · simp [apply_ite State.cpu]
@[simp] theorem canReadStatus_cpu (s : State) : s.canReadStatus.cpu = s.cpu := cpu_eq_iff.mpr (canReadStatus_sameCpu s)
@[simp] theorem canWriteByte_cpu (s : State) (k : Fin 256) (v : Byte) : (s.canWriteByte k v).cpu = s.cpu := by
  unfold State.canWriteByte
  dsimp only
  cases s.can.obj15 <;> simp [apply_ite State.cpu]

/-! ### ADC -/

@[simp] theorem adcStart_cpu (s : State) (c : BitVec 4) (b : Bool) : (s.adcStart c b).cpu = s.cpu := rfl
@[simp] theorem adcSet_cpu (s : State) (i : Nat) (b : Bool) : (s.adcSet i b).cpu = s.cpu :=
  cpu_eq_iff.mpr (adcSet_sameCpu s i b)
@[simp] theorem adcDeliver_cpu (s : State) (b : Bool) (v : Word) : (s.adcDeliver b v).cpu = s.cpu :=
  cpu_eq_iff.mpr (adcDeliver_sameCpu s b v)
@[simp] theorem adcNext_cpu (s : State) : s.adcNext.cpu = s.cpu := cpu_eq_iff.mpr (adcNext_sameCpu s)
@[simp] theorem adcRead_cpu (s : State) (b : Bool) : (s.adcRead b).cpu = s.cpu := cpu_eq_iff.mpr (adcRead_sameCpu s b)
@[simp] theorem adcDone_cpu (s : State) : s.adcDone.cpu = s.cpu := by
  unfold State.adcDone
  split <;> simp
@[simp] theorem adcTick_cpu (s : State) : s.adcTick.cpu = s.cpu := by
  unfold State.adcTick
  dsimp only
  cases s.adc.phase <;> simp [apply_ite State.cpu]
@[simp] theorem writeAdcon_cpu (s : State) (v n : Word) : (s.writeAdcon v n).cpu = s.cpu := by
  simp [State.writeAdcon, apply_ite State.cpu]
@[simp] theorem writeAddat2_cpu (s : State) (v : Word) : (s.writeAddat2 v).cpu = s.cpu := by
  simp [State.writeAddat2, apply_ite State.cpu]

/-! ### CAPCOM -/

@[simp] theorem setCapChanged_cpu (s : State) (n : Fin 4) (b : Bool) : (s.setCapChanged n b).cpu = s.cpu := rfl
@[simp] theorem setCapDone_cpu (s : State) (x : Fin 32) (b : Bool) : (s.setCapDone x b).cpu = s.cpu := rfl

theorem foldl_fst_cpu {α β : Type} {f : State × β → α → State × β} (h : ∀ p x, (f p x).1.cpu = p.1.cpu) (l : List α)
    (p : State × β) : (l.foldl f p).1.cpu = p.1.cpu := by
  induction l generalizing p with
  | nil => rfl
  | cons x l ih => rw [List.foldl_cons, ih, h]

@[simp] theorem capOverflow_cpu (s : State) (q : CapReq) (n : Fin 4) : (s.capOverflow q n).1.cpu = s.cpu := by
  unfold State.capOverflow
  rw [foldl_fst_cpu]
  intro p x
  dsimp only
  split <;> rfl
@[simp] theorem capCount_cpu (s : State) (q : CapReq) (x : CapTimer) : (s.capCount q x).1.cpu = s.cpu := by
  unfold State.capCount
  dsimp only
  split <;> simp
@[simp] theorem capTimerStep_cpu (s : State) (q : CapReq) (x : CapTimer) (p : Option Bool) (b : Bool) (k : Nat) :
    (s.capTimerStep q x p b k).1.cpu = s.cpu := by
  unfold State.capTimerStep
  split <;> simp
@[simp] theorem ccEvent_cpu (s : State) (x : Fin 32) : (s.ccEvent x).cpu = s.cpu := by
  simp [State.ccEvent, apply_ite State.cpu]
@[simp] theorem capCapture_cpu (s : State) (x : Fin 32) : (s.capCapture x).cpu = s.cpu := by
  unfold State.capCapture
  dsimp only
  split <;> simp
@[simp] theorem capMatch_cpu (s : State) (q : CapReq) (x : Fin 32) : (s.capMatch q x).1.cpu = s.cpu := by
  unfold State.capMatch
  dsimp only
  split
  · split
    · split <;> simp
    · simp
  all_goals simp
@[simp] theorem capCompare_cpu (s : State) (q : CapReq) (x : Fin 32) : (s.capCompare q x).1.cpu = s.cpu := by
  unfold State.capCompare
  dsimp only
  split <;> simp
@[simp] theorem capApply_cpu (s : State) (q : CapReq) (x : Fin 32) : (s.capApply q x).cpu = s.cpu := by
  simp [State.capApply, apply_ite State.cpu]
@[simp] theorem capUnit_cpu (s : State) (u : Bool) (p : Option Bool) (b : Bool) (k : Nat) :
    (s.capUnit u p b k).cpu = s.cpu := by
  simp [State.capUnit, foldl_cpu, foldl_fst_cpu]
@[simp] theorem capcomTick_cpu (s : State) (k : Nat) : (s.capcomTick k).cpu = s.cpu := by
  simp [State.capcomTick]
@[simp] theorem writeCapTimer_cpu (s : State) (n : Fin 4) (v : Word) : (s.writeCapTimer n v).cpu = s.cpu := rfl

/-! ### GPT -/

@[simp] theorem gptSet_cpu (s : State) (r : Sfr) (v : Word) : (s.gptSet r v).cpu = s.cpu := by
  simp [State.gptSet, apply_ite State.cpu]
@[simp] theorem gptCount_cpu (s : State) (x : GptTimer) (e : Bool) : (s.gptCount x e).1.cpu = s.cpu := by
  unfold State.gptCount
  dsimp only
  split_ifs <;> rfl
@[simp] theorem gpt1Core_cpu (s : State) (p : Word) (k : Nat) : (s.gpt1Core p k).1.cpu = s.cpu := by
  unfold State.gpt1Core
  dsimp only
  split_ifs <;> simp
@[simp] theorem gpt1Aux_cpu (s : State) (x : GptTimer) (prev : Option Bool) (pin eud : Bool) (otl : Option Bool)
    (t3 : Word) (k : Nat) : (s.gpt1Aux x prev pin eud otl t3 k).cpu = s.cpu := by
  unfold State.gpt1Aux
  dsimp only
  split <;> simp [apply_ite State.cpu]
@[simp] theorem gpt1Tick_cpu (s : State) (k : Nat) : (s.gpt1Tick k).cpu = s.cpu := by
  simp [State.gpt1Tick]
@[simp] theorem gpt2Core_cpu (s : State) (k : Nat) : (s.gpt2Core k).1.cpu = s.cpu := by
  unfold State.gpt2Core
  dsimp only
  split_ifs <;> simp
@[simp] theorem gpt2Aux_cpu (s : State) (otl : Option Bool) (k : Nat) : (s.gpt2Aux otl k).cpu = s.cpu := by
  unfold State.gpt2Aux
  dsimp only
  split <;> simp [apply_ite State.cpu]
@[simp] theorem gpt2Capture_cpu (s : State) (b : Bool) : (s.gpt2Capture b).cpu = s.cpu := by
  simp [State.gpt2Capture, apply_ite State.cpu]
@[simp] theorem gpt2Tick_cpu (s : State) (k : Nat) : (s.gpt2Tick k).cpu = s.cpu := by
  simp [State.gpt2Tick]

/-! ### PWM -/

@[simp] theorem pwmNewCycle_cpu (s : State) (x : Fin 4) : (s.pwmNewCycle x).cpu = s.cpu := by
  simp [State.pwmNewCycle, apply_ite State.cpu]
@[simp] theorem pwmTurn_cpu (s : State) (x : Fin 4) (b : Bool) : (s.pwmTurn x b).cpu = s.cpu := rfl
@[simp] theorem pwmPulse_cpu (s : State) (x : Fin 4) : (s.pwmPulse x).cpu = s.cpu := by
  simp [State.pwmPulse, apply_ite State.cpu]
@[simp] theorem pwmChannel_cpu (s : State) (t : Nat) (x : Fin 4) : (s.pwmChannel t x).cpu = s.cpu := by
  simp [State.pwmChannel, apply_ite State.cpu]
@[simp] theorem pwmTick_cpu (s : State) (t : Nat) : (s.pwmTick t).cpu = s.cpu := by
  simp [State.pwmTick, foldl_cpu]
@[simp] theorem writePt_cpu (s : State) (x : Fin 4) (v : Word) : (s.writePt x v).cpu = s.cpu := rfl
@[simp] theorem writePp_cpu (s : State) (x : Fin 4) (v : Word) : (s.writePp x v).cpu = s.cpu := by
  simp [State.writePp, apply_ite State.cpu]
@[simp] theorem writePw_cpu (s : State) (x : Fin 4) (v : Word) : (s.writePw x v).cpu = s.cpu := by
  simp [State.writePw, apply_ite State.cpu]

/-! ### SSC -/

@[simp] theorem sscStatus_cpu (s : State) (i : Nat) (b : Bool) : (s.sscStatus i b).cpu = s.cpu := rfl
@[simp] theorem sscError_cpu (s : State) (i : Nat) : (s.sscError i).cpu = s.cpu := by
  simp [State.sscError, apply_ite State.cpu]
@[simp] theorem sscShiftOut_cpu (s : State) : s.sscShiftOut.cpu = s.cpu := rfl
@[simp] theorem sscBegin_cpu (s : State) : s.sscBegin.cpu = s.cpu := rfl
@[simp] theorem sscLoad_cpu (s : State) (b : Bool) : (s.sscLoad b).cpu = s.cpu := by
  simp [State.sscLoad, apply_ite State.cpu]
@[simp] theorem sscLatch_cpu (s : State) (b : Bool) : (s.sscLatch b).cpu = s.cpu := rfl
@[simp] theorem sscBitDone_cpu (s : State) : s.sscBitDone.cpu = s.cpu := by
  simp [State.sscBitDone, apply_ite State.cpu]
@[simp] theorem sscMasterBit_cpu (s : State) : s.sscMasterBit.cpu = s.cpu := by
  simp [State.sscMasterBit, apply_ite State.cpu]
@[simp] theorem sscMasterHalf_cpu (s : State) (b : Bool) : (s.sscMasterHalf b).cpu = s.cpu := by
  simp [State.sscMasterHalf, apply_ite State.cpu]
@[simp] theorem sscTimer_cpu (s : State) : s.sscTimer.1.cpu = s.cpu := by
  unfold State.sscTimer
  dsimp only
  split_ifs <;> rfl
@[simp] theorem sscMasterTick_cpu (s : State) (p : Word) : (s.sscMasterTick p).cpu = s.cpu := by
  simp [State.sscMasterTick, apply_ite State.cpu]
@[simp] theorem sscBaudCheck_cpu (s : State) : s.sscBaudCheck.cpu = s.cpu := by
  simp [State.sscBaudCheck, apply_ite State.cpu]
@[simp] theorem sscSlaveStart_cpu (s : State) : s.sscSlaveStart.cpu = s.cpu := by
  simp [State.sscSlaveStart, apply_ite State.cpu]
@[simp] theorem sscSlaveLeading_cpu (s : State) (b : Bool) : (s.sscSlaveLeading b).cpu = s.cpu := by
  simp [State.sscSlaveLeading, apply_ite State.cpu]
@[simp] theorem sscSlaveTrailing_cpu (s : State) (b : Bool) : (s.sscSlaveTrailing b).cpu = s.cpu := by
  simp [State.sscSlaveTrailing, apply_ite State.cpu]
@[simp] theorem sscSlaveTick_cpu (s : State) (p : Word) : (s.sscSlaveTick p).cpu = s.cpu := by
  unfold State.sscSlaveTick
  dsimp only
  split <;> simp [apply_ite State.cpu]
@[simp] theorem sscPhase_cpu (s : State) (b : Bool) : (s.sscPhase b).cpu = s.cpu := by
  simp [State.sscPhase, apply_ite State.cpu]
@[simp] theorem sscTick_cpu (s : State) : s.sscTick.cpu = s.cpu := by
  simp [State.sscTick, apply_ite State.cpu]
@[simp] theorem writeSsccon_cpu (s : State) (v : Word) : (s.writeSsccon v).cpu = s.cpu := by
  simp [State.writeSsccon, apply_ite State.cpu]
@[simp] theorem writeSsctb_cpu (s : State) (v : Word) : (s.writeSsctb v).cpu = s.cpu := rfl

@[simp] theorem units_cpu (s : State) (k : Nat) : (s.units k).cpu = s.cpu := by
  simp [State.units, apply_ite State.cpu]
end Sys2Proof.Machine

namespace Sys2Proof.Machine

/-! ## The hard-wired bits -/

/-- A bit set outside a mask leaves what the mask keeps. -/
theorem wset_and (w m : Word) (i : Nat) (b : Bool) (h : m.getLsbD i = false) : wset w i b &&& m = w &&& m := by
  apply BitVec.eq_of_getLsbD_eq
  intro j hj
  rw [BitVec.getLsbD_and, BitVec.getLsbD_and, wset_getLsbD _ _ _ _ hj]
  by_cases hij : j = i
  · rw [if_pos hij, hij, h, Bool.and_false, Bool.and_false]
  · rw [if_neg hij]

theorem withFlags_reserved (psw : Word) (f : Flags) : withFlags psw f &&& 0x0380 = psw &&& 0x0380 := by
  have hm : (0x0380 : Word) = 0xFFE0 &&& 0x0380 := rfl
  rw [hm, ← BitVec.and_assoc, withFlags_high, BitVec.and_assoc]

/-- What CP takes has the hard-wired bits. -/
theorem stackNorm_cpNorm (v : Word) : stackNorm (cpNorm v) = cpNorm v := by
  have hor : ∀ w : Word, stackNorm w = w → stackNorm (w ||| 0x0C00) = w ||| 0x0C00 := by
    intro w hw
    unfold stackNorm at *
    rw [BitVec.and_or_distrib_right, ← BitVec.or_assoc, hw]
    rfl
  unfold cpNorm
  split
  · exact hor _ (stackNorm_idem v)
  · exact stackNorm_idem v

namespace Core

theorem hardwired_sp {c : Core} {v : Word} (hv : stackNorm v = v) (h : c.hardwired) : { c with sp := v }.hardwired :=
  ⟨hv, h.2⟩

theorem hardwired_stkov {c : Core} {v : Word} (hv : stackNorm v = v) (h : c.hardwired) :
    { c with stkov := v }.hardwired := ⟨h.1, hv, h.2.2⟩

theorem hardwired_stkun {c : Core} {v : Word} (hv : stackNorm v = v) (h : c.hardwired) :
    { c with stkun := v }.hardwired := ⟨h.1, h.2.1, hv, h.2.2.2⟩

theorem hardwired_cp {c : Core} {v : Word} (hv : stackNorm v = v) (h : c.hardwired) : { c with cp := v }.hardwired := by
  obtain ⟨hsp, hov, hun, -, hrest⟩ := h
  exact ⟨hsp, hov, hun, hv, hrest⟩

theorem hardwired_psw {c : Core} {v : Word} (hv : v &&& 0x0380 = 0) (h : c.hardwired) :
    { c with psw := v }.hardwired := by
  obtain ⟨hsp, hov, hun, hcp, -, hrest⟩ := h
  exact ⟨hsp, hov, hun, hcp, hv, hrest⟩

theorem hardwired_dpp {c : Core} {d : Vector Word 4} (hd : ∀ n : Fin 4, d[n.val] &&& 0xFC00 = 0) (h : c.hardwired) :
    { c with dpp := d }.hardwired := by
  obtain ⟨hsp, hov, hun, hcp, hpsw, -, hrest⟩ := h
  exact ⟨hsp, hov, hun, hcp, hpsw, hd, hrest⟩

theorem hardwired_mdc {c : Core} {v : Word} (hv : v &&& 0xFF00 = 0) (h : c.hardwired) :
    { c with mdc := v }.hardwired := by
  obtain ⟨hsp, hov, hun, hcp, hpsw, hdpp, -, htfr⟩ := h
  exact ⟨hsp, hov, hun, hcp, hpsw, hdpp, hv, htfr⟩

theorem hardwired_tfr {c : Core} {v : Word} (hv : v &&& 0x1F70 = 0) (h : c.hardwired) :
    { c with tfr := v }.hardwired := by
  obtain ⟨hsp, hov, hun, hcp, hpsw, hdpp, hmdc, -⟩ := h
  exact ⟨hsp, hov, hun, hcp, hpsw, hdpp, hmdc, hv⟩

theorem hardwired.psw_reserved {c : Core} (h : c.hardwired) : c.psw &&& 0x0380 = 0 := by
  obtain ⟨-, -, -, -, hpsw, -⟩ := h
  exact hpsw

theorem hardwired.dpp_high {c : Core} (h : c.hardwired) (n : Fin 4) : c.dpp[n.val] &&& 0xFC00 = 0 := by
  obtain ⟨-, -, -, -, -, hdpp, -⟩ := h
  exact hdpp n

theorem hardwired.mdc_high {c : Core} (h : c.hardwired) : c.mdc &&& 0xFF00 = 0 := by
  obtain ⟨-, -, -, -, -, -, hmdc, -⟩ := h
  exact hmdc

theorem hardwired.tfr_reserved {c : Core} (h : c.hardwired) : c.tfr &&& 0x1F70 = 0 := by
  obtain ⟨-, -, -, -, -, -, -, htfr⟩ := h
  exact htfr

/-- MDC with another bit of its low byte. -/
theorem hardwired_mdcBit {c : Core} (i : Nat) (b : Bool) (hi : i < 8) (h : c.hardwired) :
    { c with mdc := wset c.mdc i b }.hardwired := by
  refine hardwired_mdc ?_ h
  rw [wset_and _ _ _ _ (by interval_cases i <;> rfl)]
  exact h.mdc_high

theorem hardwired_reset (syscon : Word) : (Core.reset syscon).hardwired := by
  have hfc : stackNorm 0xFC00 = 0xFC00 := by decide
  have hfa : stackNorm 0xFA00 = 0xFA00 := by decide
  have hdpp : ∀ n : Fin 4, (#v[0, 1, 2, 3] : Vector Word 4)[n.val] &&& 0xFC00 = 0 := by decide
  exact ⟨hfc, hfa, hfc, hfc, BitVec.zero_and, hdpp, BitVec.zero_and, BitVec.zero_and⟩

end Core

/-! ## What a property of the state must survive -/

/-- What an instruction can change of the core, the mode of a locked sequence and memory. -/
def State.held (s : State) : Core × Ext × Memory := (s.core, s.sys.ext, s.mem)

theorem held_of_cpu {s t : State} (h : t.cpu = s.cpu) : t.held = s.held := by
  obtain ⟨hc, hy, hm, -⟩ := cpu_eq_iff.mp h
  simp only [State.held, hc, hy, hm]

/-- `P` survives every elementary change that instructions and the clocks are made of: of what `held` leaves out, of the
core if its hard-wired bits stay, and of one byte of memory. -/
structure Closed (P : State → Prop) : Prop where
  rest : ∀ {s t : State}, t.held = s.held → P s → P t
  core : ∀ {s : State} (c : Core), (s.core.hardwired → c.hardwired) → P s → P { s with core := c }
  mem : ∀ {s : State} (k : Nat) (v : Byte), P s → P { s with mem := s.mem.set k v }

theorem inv_closed : Closed State.Inv where
  rest := fun {s t} h hs => by
    simp only [State.held, Prod.mk.injEq] at h
    obtain ⟨hc, -, hm⟩ := h
    unfold State.Inv
    rw [hc, hm]
    exact hs
  core := fun _ hc hs => ⟨hs.1, hc hs.2⟩
  mem := fun k v hs => ⟨Memory.wf_set hs.1 k v, hs.2⟩

/-- A locked sequence survives them too: only the extension instructions and the entries into a trap or an interrupt
change one. -/
theorem lock_closed (Q : Ext → Prop) : Closed (fun s => Q s.sys.ext) where
  rest := fun {s t} h hs => by
    simp only [State.held, Prod.mk.injEq] at h
    obtain ⟨-, he, -⟩ := h
    rw [he]
    exact hs
  core := fun _ _ hs => hs
  mem := fun _ _ hs => hs

namespace Closed

variable {P : State → Prop} {s t : State}

theorem ite (c : Prop) [Decidable c] (hs : P s) (ht : P t) : P (if c then s else t) := by
  split <;> assumption

theorem unit (h : Closed P) (ht : t.cpu = s.cpu) (hs : P s) : P t := h.rest (held_of_cpu ht) hs

theorem raise (h : Closed P) (m : Word) (hm : m &&& 0x1F70 = 0) (hs : P s) : P (s.raise m) := by
  refine h.rest (s := { s with core := { s.core with tfr := s.core.tfr ||| m } }) rfl (h.core _ (fun hw => ?_) hs)
  refine Core.hardwired_tfr ?_ hw
  rw [BitVec.and_or_distrib_right, hw.tfr_reserved, hm]
  rfl

theorem storeCell (h : Closed P) (k : Nat) (v : Byte) (hs : P s) : P (s.storeCell k v) :=
  h.rest (s := { s with mem := s.mem.set k v }) rfl (h.mem k v hs)

theorem storeWord (h : Closed P) (k : Nat) (v : Word) (hs : P s) : P (s.storeWord k v) :=
  h.storeCell _ _ (h.storeCell _ _ hs)

theorem foreignStore (h : Closed P) (k : Nat) (v : Byte) (hs : P s) : P (s.foreignStore k v) :=
  h.rest (s := { s with mem := s.mem.set k v }) rfl (h.mem k v hs)

theorem withFlags (h : Closed P) (f : Flags) (hs : P s) : P (s.withFlags f) :=
  h.core _ (fun hw => Core.hardwired_psw ((withFlags_reserved _ f).trans hw.psw_reserved) hw) hs

theorem setPsw (h : Closed P) (v : Word) (hv : s.core.hardwired → v &&& 0x0380 = 0) (hs : P s) : P (s.setPsw v) :=
  h.rest (s := { s with core := { s.core with psw := v } }) rfl
    (h.core _ (fun hw => Core.hardwired_psw (hv hw) hw) hs)

theorem setSp (h : Closed P) (v : Word) (hs : P s) : P (s.setSp (stackNorm v)) :=
  h.core _ (Core.hardwired_sp (stackNorm_idem v)) hs

theorem advance (h : Closed P) (n : Nat) (hs : P s) : P (s.advance n) :=
  h.rest (s := { s with core := { s.core with ip := s.core.ip + BitVec.ofNat 16 n } }) rfl (h.core _ (fun hw => hw) hs)

theorem branch (h : Closed P) (ip : Word) (hs : P s) : P (s.branch ip) := by
  rw [State.branch_eq]
  have ht := h.rest (t := { s with
    core := { s.core with ip := ip }, sys := { s.sys with crossed := false, stored := [], flushed := true } })
    (s := { s with core := { s.core with ip := ip } }) rfl (h.core _ (fun hw => hw) hs)
  exact ite _ (h.raise _ rfl ht) ht

theorem fillCache (h : Closed P) (ip : Word) (hs : P s) : P (s.fillCache ip) :=
  ite _ (h.rest (s := s) rfl hs) (h.rest (s := s) rfl hs)

end Closed

/-! ## Registers -/

@[simp] theorem held_mk (c : Core) (y : Sys) (f : SfrFile) (m : Memory) (g : Gpt) (a : Asc) (x : Ssc) (cc : Capcom)
    (p : Pwm) (d : Adc) (cn : Can) (b : Bus) (k : Nat) (e : Env) (n : Nat) :
    State.held ⟨c, y, f, m, g, a, x, cc, p, d, cn, b, k, e, n⟩ = (c, y.ext, m) := rfl

/-- A write of the mapping registers is remembered in what `held` leaves out. -/
theorem remap_held (s t : State) : (s.remap t).held = t.held := rfl

theorem writeDirection_held (s : State) (r : Sfr) (v : Word) : (s.writeDirection r v).held = s.held := by
  unfold State.writeDirection
  dsimp only
  split <;> rfl

theorem markGpt_cpu (s : State) (r : Sfr) : (s.markGpt r).cpu = s.cpu := by
  simp [State.markGpt, apply_ite State.cpu]

theorem held_ite {c : Prop} [Decidable c] {s t u : State} (hs : s.held = u.held) (ht : t.held = u.held) :
    (if c then s else t).held = u.held := by split <;> assumption

theorem held_dite {c : Prop} [Decidable c] {s : c → State} {t : ¬c → State} {u : State} (hs : ∀ h, (s h).held = u.held)
    (ht : ∀ h, (t h).held = u.held) : (if h : c then s h else t h).held = u.held := by split <;> apply_assumption

/-- No write to a peripheral register changes the core or memory. -/
theorem writePeripheral_held (s : State) (r : Sfr) (v named : Word) : (s.writePeripheral r v named).held = s.held :=
  held_ite rfl <| held_ite (held_of_cpu (writeS0bg_cpu s v)) <| held_ite rfl <|
  held_ite (held_of_cpu (writeAdcon_cpu s v named)) <| held_ite (held_of_cpu (writeAddat2_cpu s v)) <|
  held_ite rfl <| held_ite rfl <| held_ite rfl <| held_ite rfl <| held_ite rfl <| held_ite rfl <| held_ite rfl <|
  held_ite (held_of_cpu (markGpt_cpu _ r)) <| held_dite (fun _ => rfl) fun _ =>
  held_dite (fun _ => held_of_cpu (writePp_cpu s _ v)) fun _ =>
  held_dite (fun _ => held_of_cpu (writePw_cpu s _ v)) fun _ => held_ite rfl <| held_ite (remap_held _ _) rfl

theorem storePeripheral_held (s : State) (r : Sfr) (v named : Word) : (s.storePeripheral r v named).held = s.held := by
  unfold State.storePeripheral
  exact held_ite (held_of_cpu (writeSsccon_cpu s v)) <|
    held_ite (writeDirection_held s r v) (writePeripheral_held s r _ named)

/-- What a chain of tests that answers `x` first answers. -/
theorem forall_mem_ite_some {c : Prop} [Decidable c] {Q : State → Prop} {x : State} {b : Option State} (hx : Q x)
    (hb : ∀ t ∈ b, Q t) : ∀ t ∈ (if c then some x else b), Q t := by
  split
  · rintro t ⟨rfl⟩
    exact hx
  · exact hb

theorem forall_mem_dite_some {c : Prop} [Decidable c] {Q : State → Prop} {x : c → State} {b : Option State}
    (hx : ∀ h, Q (x h)) (hb : ∀ t ∈ b, Q t) : ∀ t ∈ (if h : c then some (x h) else b), Q t := by
  split
  · rintro t ⟨rfl⟩
    exact hx _
  · exact hb

namespace Closed

variable {P : State → Prop} {s t : State}

theorem writeDpp (h : Closed P) (n : Fin 4) (v : Word) (hs : P s) : P (s.writeDpp n v) := by
  refine h.rest (s := { s with core := (s.writeDpp n v).core }) rfl (h.core _ (fun hw => ?_) hs)
  refine Core.hardwired_dpp (fun m => ?_) hw
  rw [Vector.getElem_set]
  split
  · rw [BitVec.and_assoc]; exact BitVec.and_zero
  · exact hw.dpp_high m

theorem writeCp (h : Closed P) (v : Word) (hs : P s) : P (s.writeCp v) :=
  h.rest (s := { s with core := { s.core with cp := cpNorm v } }) rfl
    (h.core _ (Core.hardwired_cp (stackNorm_cpNorm v)) hs)

theorem writeSp (h : Closed P) (v : Word) (hs : P s) : P (s.writeSp v) :=
  h.rest (s := { s with core := { s.core with sp := stackNorm v } }) rfl
    (h.core _ (Core.hardwired_sp (stackNorm_idem v)) hs)

theorem writePsw (h : Closed P) (v : Word) (hs : P s) : P (s.writePsw v) :=
  h.rest (s := { s with core := { s.core with psw := v &&& 0xFC7F } }) rfl
    (h.core _ (Core.hardwired_psw (by rw [BitVec.and_assoc]; exact BitVec.and_zero)) hs)

theorem writeTfr (h : Closed P) (v : Word) (hs : P s) : P (s.writeTfr v) :=
  h.rest (s := { s with core := { s.core with tfr := v &&& 0xE08F } }) rfl
    (h.core _ (Core.hardwired_tfr (by rw [BitVec.and_assoc]; exact BitVec.and_zero)) hs)

theorem writeSyscon (h : Closed P) (v : Word) (hs : P s) : P (s.writeSyscon v) :=
  ite _ hs (h.rest (remap_held _ _) (h.core _ (fun hw => hw) hs))

/-- A write to a register of the core keeps its hard-wired bits. -/
theorem writeCore (h : Closed P) (r : Sfr) (v : Word) (hs : P s) : ∀ t ∈ s.writeCore r v, P t := by
  have hbit : s.core.hardwired → { s.core with mdc := wset s.core.mdc 4 true }.hardwired :=
    Core.hardwired_mdcBit 4 true (by omega)
  exact forall_mem_dite_some (fun _ => h.writeDpp _ v hs) <| forall_mem_ite_some hs <|
    forall_mem_ite_some (h.core _ hbit hs) <| forall_mem_ite_some (h.core _ hbit hs) <|
    forall_mem_ite_some (h.writeCp v hs) <| forall_mem_ite_some (h.writeSp v hs) <|
    forall_mem_ite_some (h.core _ (Core.hardwired_stkov (stackNorm_idem v)) hs) <|
    forall_mem_ite_some (h.core _ (Core.hardwired_stkun (stackNorm_idem v)) hs) <|
    forall_mem_ite_some (h.core _ (Core.hardwired_mdc (by rw [BitVec.and_assoc]; exact BitVec.and_zero)) hs) <|
    forall_mem_ite_some (h.writePsw v hs) <| forall_mem_ite_some (h.writeSyscon v hs) <|
    forall_mem_ite_some hs <| forall_mem_ite_some hs <| forall_mem_ite_some (h.writeTfr v hs) (by rintro t ⟨⟩)

theorem storeSfr (h : Closed P) (r : Sfr) (v named : Word) (hs : P s) : P (s.storeSfr r v named) := by
  unfold State.storeSfr
  split
  · rename_i t ht
    split
    · exact h.rest (s := t) rfl (h.writeCore r v hs t ht)
    · exact h.writeCore r v hs t ht
  · exact h.rest (storePeripheral_held s r v named) hs

theorem noteRmw (h : Closed P) (r : Sfr) (m : Word) (hs : P s) : P (s.noteRmw r m) := h.rest (s := s) rfl hs

theorem afterSfrRead (h : Closed P) (r : Sfr) (hs : P s) : P (s.afterSfrRead r) := by
  unfold State.afterSfrRead
  split_ifs
  · exact h.core _ (Core.hardwired_mdcBit 4 false (by omega)) hs
  · exact h.rest (by rfl) hs
  · exact h.rest (by rfl) hs
  · exact h.unit (adcRead_cpu s false) hs
  · exact h.unit (adcRead_cpu s true) hs
  · exact hs

end Closed
end Sys2Proof.Machine

namespace Sys2Proof.Machine

/-! ## Reads and writes -/

theorem checkSfr_keeps {P : State → Prop} (r : Sfr) : Keeps P (checkSfr r) :=
  .ite (.faultAt _) (.ite (.faultAt _) (.pure _))

section
variable {P : State → Prop} (h : Closed P)
include h

theorem raiseTrap_keeps (m : Word) (hm : m &&& 0x1F70 = 0) : Keeps P (raiseTrap m) :=
  .change fun _ => h.raise m hm

theorem readSfr_keeps (r : Sfr) : Keeps P (readSfr r) :=
  .bind (checkSfr_keeps r) fun _ => .bind (.look _) fun _ =>
    .bind (.change fun _ => h.afterSfrRead r) fun _ => .pure _

theorem writeSfrBits_keeps (r : Sfr) (v named : Word) : Keeps P (writeSfrBits r v named) := by
  refine .bind (checkSfr_keeps r) fun _ => .bind (.look _) fun e => ?_
  cases e with
  | some e => exact .refuse e
  | none => exact .change fun _ => h.storeSfr r v named

theorem writeSfr_keeps (r : Sfr) (v : Word) : Keeps P (writeSfr r v) := writeSfrBits_keeps h r v _

theorem canAck_keeps (k : Fin 256) : Keeps P (canAck k) :=
  .ite (.change fun s => h.unit (canReadStatus_cpu s)) (.pure _)

theorem readCanByte_keeps (k : Fin 256) : Keeps P (readCanByte k) :=
  .bind (.look _) fun _ => .bind (canAck_keeps h k) fun _ => .pure _

theorem readCanWord_keeps (k : Fin 256) : Keeps P (readCanWord k) :=
  .bind (.look _) fun _ => .bind (canAck_keeps h _) fun _ => .pure _

theorem writeCan_keeps (l : List (Fin 256 × Byte)) : Keeps P (writeCan l) := by
  refine .bind (.look _) fun e => ?_
  cases e with
  | some e => exact .refuse e
  | none =>
    refine .change fun s => h.unit ?_
    rw [canUpdate_cpu, foldl_cpu fun (t : State) (b : Fin 256 × Byte) => canWriteByte_cpu t b.1 b.2]

theorem access_keeps (area : Area) (a : Addr) (c : Access) (k : Nat) : Keeps P (change fun s => s.access area a c k) :=
  .change fun _ => h.rest rfl

theorem cellOf_keeps (a : Addr) (area : Area) (c : Access) : Keeps P (cellOf a area c) := by
  cases area with
  | iram | rom | sfr | can => exact .pure _
  | xram => exact .bind (access_keeps h _ a c 0) fun _ => .pure _
  | romAbsent => exact .bind (.look _) fun _ => .ite (.pure _) (.refuse _)
  | reserved => exact .faultAt _
  | badWindow | overlap => exact .refuse _
  | ext x =>
    refine .bind (.look _) fun k => .bind (.look _) fun _ => .bind (.look _) fun _ => ?_
    have done : Keeps P (change (fun s => s.access (.ext x) a c k) >>= fun _ => pure (some k)) :=
      .bind (access_keeps h _ a c k) fun _ => .pure _
    exact .ite (.bind (.waitBus _) fun _ => done) done
  | noBus => exact .bind (raiseTrap_keeps h _ rfl) fun _ => .pure _

/-- The areas that are neither registers nor the CAN module share their reading: what it ends with is looked up. -/
theorem readWord_keeps (a : Addr) : Keeps P (readWord a) := by
  refine .ite (.bind (raiseTrap_keeps h _ rfl) fun _ => .look _) (.bind (.look _) fun area => ?_)
  split
  · exact readSfr_keeps h _
  · exact .bind (access_keeps h _ a _ 0) fun _ => readCanWord_keeps h _
  · refine .bind (cellOf_keeps h a _ _) fun k => ?_
    split <;> exact .look _

theorem readByte_keeps (a : Addr) : Keeps P (readByte a) := by
  refine .bind (.look _) fun area => ?_
  split
  · exact .bind (readSfr_keeps h _) fun _ => .pure _
  · exact .bind (access_keeps h _ a _ 0) fun _ => readCanByte_keeps h _
  · refine .bind (cellOf_keeps h a _ _) fun k => ?_
    split
    · exact .look _
    · exact .bind (.look _) fun _ => .pure _

omit h in
theorem checkRom_keeps (area : Area) : Keeps P (checkRom area) := by
  cases area with
  | rom | romAbsent => exact .refuse _
  | _ => exact .pure _

theorem writeWord_keeps (a : Addr) (v : Word) : Keeps P (writeWord a v) := by
  refine .ite (raiseTrap_keeps h _ rfl) (.bind (.look _) fun area => ?_)
  split
  · exact writeSfr_keeps h _ v
  · exact .bind (access_keeps h _ a _ 0) fun _ => writeCan_keeps h _
  · refine .bind (checkRom_keeps _) fun _ => .bind (cellOf_keeps h a _ _) fun k => ?_
    split
    · exact .change fun _ => h.storeWord _ v
    · exact .pure _

theorem writeByte_keeps (a : Addr) (v : Byte) : Keeps P (writeByte a v) := by
  refine .bind (.look _) fun area => ?_
  split
  · exact writeSfr_keeps h _ _
  · exact .bind (access_keeps h _ a _ 0) fun _ => writeCan_keeps h _
  · refine .bind (checkRom_keeps _) fun _ => .bind (cellOf_keeps h a _ _) fun k => ?_
    split
    · exact .change fun _ => h.storeCell _ v
    · exact .pure _

omit h in
theorem gprCell_keeps (off width : Nat) : Keeps P (gprCell off width) :=
  .bind (.look _) fun _ => .ite (.pure _) (.refuse _)

omit h in
theorem readGpr_keeps (n : Gpr) : Keeps P (readGpr n) := .bind (gprCell_keeps _ _) fun _ => .look _

theorem writeGpr_keeps (n : Gpr) (v : Word) : Keeps P (writeGpr n v) :=
  .bind (gprCell_keeps _ _) fun k => .change fun _ => h.storeWord k v

omit h in
theorem readGprB_keeps (n : Gpr) : Keeps P (readGprB n) := .bind (gprCell_keeps _ _) fun _ => .look _

theorem writeGprB_keeps (n : Gpr) (v : Byte) : Keeps P (writeGprB n v) :=
  .bind (gprCell_keeps _ _) fun k => .change fun _ => h.storeCell k v

theorem readReg_keeps (q : Byte) : Keeps P (readReg q) :=
  .ite (readGpr_keeps _) (.bind (.look _) fun r => readSfr_keeps h r)

theorem writeReg_keeps (q : Byte) (v : Word) : Keeps P (writeReg q v) :=
  .ite (writeGpr_keeps h _ v) (.bind (.look _) fun r => writeSfr_keeps h r v)

theorem readRegB_keeps (q : Byte) : Keeps P (readRegB q) :=
  .ite (readGprB_keeps _) (.bind (.look _) fun r => .bind (readSfr_keeps h r) fun _ => .pure _)

theorem writeRegB_keeps (q v : Byte) : Keeps P (writeRegB q v) :=
  .ite (writeGprB_keeps h _ v) (.bind (.look _) fun r => writeSfr_keeps h r _)

omit h in
theorem bitLoc_keeps (b : Byte) : Keeps P (bitLoc b) :=
  .ite (.pure _) (.ite (.pure _) (.bind (.look _) fun _ => .pure _))

theorem readBitLoc_keeps (l : BitLoc) : Keeps P (readBitLoc l) := by
  cases l with
  | iram k => exact .look _
  | gpr n => exact readGpr_keeps n
  | sfr r => exact readSfr_keeps h r

theorem writeBitLoc_keeps (l : BitLoc) (v named : Word) : Keeps P (writeBitLoc l v named) := by
  cases l with
  | iram k => exact .change fun _ => h.storeWord k v
  | gpr n => exact writeGpr_keeps h n v
  | sfr r =>
    exact .bind (.look _) fun w => .bind (writeSfrBits_keeps h r w _) fun _ => .change fun _ => h.rest rfl

theorem readMem_keeps (a : Word) : Keeps P (readMem a) := .bind (.look _) fun p => readWord_keeps h p

theorem writeMem_keeps (a v : Word) : Keeps P (writeMem a v) := .bind (.look _) fun p => writeWord_keeps h p v

theorem readMemB_keeps (a : Word) : Keeps P (readMemB a) := .bind (.look _) fun p => readByte_keeps h p

theorem writeMemB_keeps (a : Word) (v : Byte) : Keeps P (writeMemB a v) :=
  .bind (.look _) fun p => writeByte_keeps h p v

/-! ## The stack and the program counter -/

omit h in
theorem stackCell_keeps (sp : Word) : Keeps P (stackCell sp) := by
  refine .bind (.look _) fun k => ?_
  split
  · exact .refuse _
  · exact .ite (.pure _) (.refuse _)

end

/-- The looked-up value is one that the state held. -/
theorem Keeps.of_look {α β : Type} {P : State → Prop} {f : State → α} {g : α → Act β} (hg : ∀ s, Keeps P (g (f s))) :
    Keeps P (Machine.look f >>= g) := by
  intro s w t hs hrun
  rw [Act.look_bind] at hrun
  exact hg s s w t hs hrun

/-- What a push keeps, from its two changes of the state. -/
theorem push_keeps_of {P : State → Prop} (v : Word)
    (hstore : ∀ s k sp, P s → P ((s.storeWord k v).setSp (stackNorm sp))) (hraise : ∀ s, P s → P (s.raise tfrStkof)) :
    Keeps P (push v) :=
  .of_look fun _ => .bind (stackCell_keeps _) fun k => .bind (.change fun s hs => hstore s k _ hs) fun _ =>
    .bind (.look _) fun _ => .ite (.change hraise) (.pure _)

/-- A push leaves PSW. -/
theorem push_keeps_psw (v psw : Word) : Keeps (fun s => s.core.psw = psw) (push v) :=
  push_keeps_of v (fun _ _ _ hs => hs) (fun _ hs => hs)

theorem Keeps.and {α : Type} {P Q : State → Prop} {a : Act α} (hp : Keeps P a) (hq : Keeps Q a) :
    Keeps (fun s => P s ∧ Q s) a :=
  fun s v t hs hrun => ⟨hp s v t hs.1 hrun, hq s v t hs.2 hrun⟩

theorem entryPsw_reserved {psw : Word} (level : Option (BitVec 4)) (mulip : Bool) (hp : psw &&& 0x0380 = 0) :
    entryPsw psw level mulip &&& 0x0380 = 0 := by
  cases level with
  | none => exact hp
  | some l =>
    have hl : ∀ l : BitVec 4, (l.setWidth 16 <<< 12 : Word) &&& 0x0380 = 0 := by decide
    have hm : ((0x0FFF : Nat) : Word) &&& 0x0380 = 0x0380 := by decide
    unfold entryPsw
    dsimp only
    rw [wset_and _ _ _ _ (by rfl), BitVec.and_or_distrib_right, hl, BitVec.and_assoc, hm, hp]
    rfl

section
variable {P : State → Prop} (h : Closed P)
include h

theorem push_keeps (v : Word) : Keeps P (push v) :=
  push_keeps_of v (fun _ k _ hs => h.setSp _ (h.storeWord k v hs)) (fun _ => h.raise _ rfl)

theorem pop_keeps : Keeps P pop :=
  .bind (.look _) fun sp => .bind (stackCell_keeps sp) fun _ => .bind (.look _) fun _ =>
    .bind (.change fun s hs => h.rest (s := s.setSp (stackNorm (sp + 2))) rfl (h.setSp _ hs)) fun _ =>
    .bind (.look _) fun _ => .ite (.bind (raiseTrap_keeps h _ rfl) fun _ => .pure _) (.pure _)

theorem next_keeps (n : Nat) : Keeps P (next n) := .change fun _ => h.advance n

theorem jump_keeps (ip : Word) : Keeps P (jump ip) := .change fun _ => h.branch ip

theorem absolute_keeps (ip : Word) : Keeps P (absolute ip) := .change fun _ => h.rest rfl

theorem flushCache_keeps : Keeps P flushCache := .change fun _ => h.rest rfl

theorem setCsp_keeps (v : Byte) : Keeps P (setCsp v) := .change fun _ => h.core _ fun hw => hw

theorem cacheJump_keeps (ip : Word) : Keeps P (cacheJump ip) :=
  .bind (.change fun _ => h.fillCache ip) fun _ => jump_keeps h ip

theorem setFlags_keeps (f : Flags) : Keeps P (setFlags f) := .change fun _ => h.withFlags f

/-- PSW on entry is a good one where the PSW pushed was. -/
theorem entered_keeps {s : State} (level : Option (BitVec 4)) (mulip clear : Bool) (hs : P s) :
    P (s.entered (entryPsw s.core.psw level mulip) clear) := by
  have ht : P (((s.setPsw (entryPsw s.core.psw level mulip)).vectored).emptyCache) :=
    h.rest (s := s.setPsw (entryPsw s.core.psw level mulip)) rfl
      (h.setPsw _ (fun hw => entryPsw_reserved level mulip hw.psw_reserved) hs)
  unfold State.entered
  dsimp only
  split
  · exact h.core _ (fun hw => hw) ht
  · exact ht

theorem enter_keeps (n : Nat) (level : Option (BitVec 4)) (ret : Word) (mulip : Bool) :
    Keeps P (enter n level ret mulip) := by
  intro s w t hs hrun
  have hpush : ∀ v, Keeps (fun u => P u ∧ u.core.psw = s.core.psw) (push v) :=
    fun v => (push_keeps h v).and (push_keeps_psw v s.core.psw)
  have tail : ∀ (c : Bool) (u : State), (P u ∧ u.core.psw = s.core.psw) →
      (push ret >>= fun _ => change (fun x => x.entered (entryPsw s.core.psw level mulip) c) >>= fun _ =>
        jump (BitVec.ofNat 16 (4 * n))) u = .ok (w, t) → P t := by
    intro c u hu hrun
    obtain ⟨_, x, hx, hrun⟩ := Act.bind_eq_ok hrun
    obtain ⟨hp, hpsw⟩ := hpush ret u _ x hu hx
    rw [Act.change_bind, ← hpsw] at hrun
    exact jump_keeps h _ _ _ _ (entered_keeps h level mulip c hp) hrun
  unfold enter at hrun
  simp only [Act.look_bind] at hrun
  obtain ⟨_, u, hu, hrun⟩ := Act.bind_eq_ok hrun
  have hu' := hpush _ s _ u ⟨hs, rfl⟩ hu
  split at hrun
  · obtain ⟨_, x, hx, hrun⟩ := Act.bind_eq_ok hrun
    exact tail _ x (hpush _ u _ x hu' hx) hrun
  · exact tail _ u hu' hrun

theorem returnFromTrap_keeps : Keeps P returnFromTrap := by
  have tail : ∀ (mulip : Bool) (ip : Word), Keeps P (pop >>= fun psw => change (fun s => s.setPsw (psw &&& 0xFC7F)) >>=
      fun _ => change State.leaveTrap >>=
      fun _ => change (fun s => { s with sys := { s.sys with resume := mulip } }) >>=
      fun _ => flushCache >>= fun _ => jump ip) := fun mulip ip =>
    .bind (pop_keeps h) fun psw =>
      .bind (.change fun _ => h.setPsw _ fun _ => by rw [BitVec.and_assoc]; exact BitVec.and_zero) fun _ =>
      .bind (.change fun _ => h.rest rfl) fun _ => .bind (.change fun _ => h.rest rfl) fun _ =>
      .bind (flushCache_keeps h) fun _ => jump_keeps h ip
  exact .bind (.look _) fun mulip => .bind (.look _) fun _ => .bind (pop_keeps h) fun ip =>
    .ite (.bind (pop_keeps h) fun _ => .bind (setCsp_keeps h _) fun _ => tail mulip ip) (tail mulip ip)

end
end Sys2Proof.Machine

namespace Sys2Proof.Machine

/-! ## The forms that instructions share -/

/-- The accesses of a width keep `P`. -/
structure WidthKeeps {w : Nat} (P : State → Prop) (W : Width w) : Prop where
  readGpr : ∀ n, Keeps P (W.readGpr n)
  writeGpr : ∀ n v, Keeps P (W.writeGpr n v)
  readReg : ∀ q, Keeps P (W.readReg q)
  writeReg : ∀ q v, Keeps P (W.writeReg q v)
  readMem : ∀ a, Keeps P (W.readMem a)
  writeMem : ∀ a v, Keeps P (W.writeMem a v)
  open_ : ∀ i, Keeps P (W.open_ i)

section
variable {P : State → Prop} (h : Closed P)
include h

theorem wordW_keeps : WidthKeeps P wordW where
  readGpr := readGpr_keeps
  writeGpr := writeGpr_keeps h
  readReg := readReg_keeps h
  writeReg := writeReg_keeps h
  readMem := readMem_keeps h
  writeMem := writeMem_keeps h
  open_ := fun _ => .look _

theorem byteW_keeps : WidthKeeps P byteW where
  readGpr := readGprB_keeps
  writeGpr := writeGprB_keeps h
  readReg := readRegB_keeps h
  writeReg := writeRegB_keeps h
  readMem := readMemB_keeps h
  writeMem := writeMemB_keeps h
  open_ := fun _ => .bind (.look _) fun _ => .pure _

theorem stepGpr_keeps (p : Gpr) (d : Word) : Keeps P (stepGpr p d) :=
  .bind (readGpr_keeps p) fun _ => writeGpr_keeps h p _

theorem openPointer_keeps (p : Gpr) : Keeps P (openPointer p) := .bind (.look _) fun _ => writeGpr_keeps h p _

theorem aluStep_keeps {w : Nat} {f : Alu w} {op2 op1 : Act (BitVec w)} {write : BitVec w → Act Unit}
    (h2 : Keeps P op2) (h1 : Keeps P op1) (hw : ∀ v, Keeps P (write v)) : Keeps P (aluStep f op2 op1 write) :=
  .bind h2 fun _ => .bind h1 fun _ => .bind (.look _) fun _ => .bind (setFlags_keeps h _) fun _ => hw _

theorem raiseDeferred_keeps {s : State} (m : Word) (hm : m &&& 0x1F70 = 0) (hs : P s) : P (s.raiseDeferred m) := by
  have ht := h.raise m hm hs
  exact Closed.ite _ ht (h.rest (s := s.raise m) rfl ht)

theorem spChecked_keeps {s : State} (c : SpCheck) (hs : P s) : P (s.spChecked c) := by
  cases c with
  | none => exact hs
  | underflow => exact Closed.ite _ (raiseDeferred_keeps h _ rfl hs) hs
  | overflow => exact Closed.ite _ (raiseDeferred_keeps h _ rfl hs) hs

theorem aluReg_keeps {s : State} (c : SpCheck) (q : Byte) (hs : P s) : P (s.aluReg c q) := by
  have ht : P (if s.regIsSp q then s.spChecked c else s) := Closed.ite _ (spChecked_keeps h c hs) hs
  exact Closed.ite _ ht (h.noteRmw _ _ ht)

theorem aluMem_keeps {s : State} (u : State) (c : SpCheck) (w : Nat) (mem : Word) (hs : P s) :
    P (s.aluMem u c w mem) := by
  have ht : P (if u.memIsSp mem then s.spChecked c else s) := Closed.ite _ (spChecked_keeps h c hs) hs
  unfold State.aluMem
  dsimp only
  split
  · exact h.noteRmw _ _ ht
  · exact ht

/-- A multiply or divide leaves MDC in its eight bits. -/
theorem mdc_keeps {s : State} (mdh mdl k : Word) (hs : P s) :
    P { s with core := { s.core with mdh := mdh, mdl := mdl, mdc := 0x10 ||| (k &&& 0xEF) } } := by
  refine h.core _ (fun hw => Core.hardwired_mdc (c := { s.core with mdh := mdh, mdl := mdl }) ?_ hw) hs
  have hk : k &&& 0xEF &&& 0xFF00 = 0 := by rw [BitVec.and_assoc]; exact BitVec.and_zero
  rw [BitVec.and_or_distrib_right, hk]
  rfl

theorem setMd_keeps (mdh mdl : Word) : Keeps P (setMd mdh mdl) :=
  .bind (.look _) fun k => .change fun _ => mdc_keeps h mdh mdl k

theorem resumeFrame_keeps (m : MulInstr) (a b : Word) : Keeps P (resumeFrame m a b) := by
  refine .bind (.look _) fun _ => .bind (.look _) fun f => ?_
  cases f with
  | none => exact .bind (.change fun _ => h.rest rfl) fun _ => .pure _
  | some f =>
    exact .bind (.change fun s hs => h.rest (s := { s with core := { s.core with mdh := f.mdh, mdl := f.mdl } }) rfl
      (h.core _ (fun hw => hw) hs)) fun _ => .pure _

omit h in
theorem productOf_keeps (known : Bool) (p : BitVec 32 × Flags) (o : BitVec 32 → Bool) :
    Keeps P (productOf known p o) :=
  .ite (.pure _) (.bind (.look _) fun _ => .bind (.look _) fun _ => .pure _)

theorem multiply_keeps (op : MulOp) (f : Word → Word → BitVec 32 × Flags) (o : BitVec 32 → Bool) (rn rm : Gpr) :
    Keeps P (multiply op f o rn rm) :=
  .bind (readGpr_keeps rn) fun _ => .bind (readGpr_keeps rm) fun _ => .bind (resumeFrame_keeps h _ _ _) fun _ =>
    .bind (productOf_keeps _ _ _) fun _ => .bind (setFlags_keeps h _) fun _ => .bind (setMd_keeps h _ _) fun _ =>
    next_keeps h 2

theorem divide_keeps (op : MulOp) (f : Division) (rn : Gpr) : Keeps P (divide op f rn) := by
  refine .bind (readGpr_keeps rn) fun _ => .bind (resumeFrame_keeps h _ _ _) fun _ => .bind (.look _) fun r => ?_
  split
  · exact .bind (setFlags_keeps h _) fun _ => .bind (setMd_keeps h _ _) fun _ => next_keeps h 2
  · exact .bind (.look _) fun _ => .bind (.look _) fun _ => .bind (.look _) fun _ =>
      .bind (setFlags_keeps h _) fun _ => .bind (setMd_keeps h _ _) fun _ => next_keeps h 2

end

section
variable {P : State → Prop} {w : Nat} {W : Width w} (h : Closed P) (hW : WidthKeeps P W)
include h hW

omit h in
theorem readIndirect_keeps (p : Gpr) : Keeps P (readIndirect W p) := .bind (readGpr_keeps p) fun _ => hW.readMem _

theorem readPostInc_keeps (p : Gpr) : Keeps P (readPostInc W p) :=
  .bind (readIndirect_keeps hW p) fun _ => .bind (stepGpr_keeps h p _) fun _ => .pure _

theorem aluWriteReg_keeps (c : SpCheck) (q : Byte) (v : BitVec w) : Keeps P (aluWriteReg W c q v) :=
  .bind (hW.writeReg q v) fun _ => .change fun _ => aluReg_keeps h c q

theorem aluWriteMem_keeps (c : SpCheck) (a : Word) (v : BitVec w) : Keeps P (aluWriteMem W c a v) :=
  .bind (.look _) fun u => .bind (hW.writeMem a v) fun _ => .change fun _ => aluMem_keeps h u c w a

theorem aluRR_keeps (f : Alu w) (rn rm : Gpr) : Keeps P (aluRR W f rn rm) :=
  .bind (aluStep_keeps h (hW.readGpr rm) (hW.readGpr rn) (hW.writeGpr rn)) fun _ => next_keeps h 2

theorem aluRI_keeps (f : Alu w) (rn : Gpr) (ri : BitVec 2) : Keeps P (aluRI W f rn ri) :=
  .bind (aluStep_keeps h (readIndirect_keeps hW _) (hW.readGpr rn) (hW.writeGpr rn)) fun _ => next_keeps h 2

theorem aluRIP_keeps (f : Alu w) (rn : Gpr) (ri : BitVec 2) : Keeps P (aluRIP W f rn ri) :=
  .ite
    (.bind (aluStep_keeps h (readPostInc_keeps h hW _) (hW.open_ 0) fun _ => openPointer_keeps h _) fun _ =>
      next_keeps h 2)
    (.bind (aluStep_keeps h (readPostInc_keeps h hW _) (hW.readGpr rn) (hW.writeGpr rn)) fun _ => next_keeps h 2)

theorem aluR3_keeps (f : Alu w) (rn : Gpr) (d : BitVec 3) : Keeps P (aluR3 W f rn d) :=
  .bind (aluStep_keeps h (.pure _) (hW.readGpr rn) (hW.writeGpr rn)) fun _ => next_keeps h 2

theorem aluRegImm_keeps (f : Alu w) (c : SpCheck) (q : Byte) (d : BitVec w) : Keeps P (aluRegImm W f c q d) :=
  .bind (aluStep_keeps h (.pure _) (hW.readReg q) (aluWriteReg_keeps h hW c q)) fun _ => next_keeps h 4

theorem aluRegMem_keeps (f : Alu w) (c : SpCheck) (q : Byte) (a : Word) : Keeps P (aluRegMem W f c q a) :=
  .bind (aluStep_keeps h (hW.readMem a) (hW.readReg q) (aluWriteReg_keeps h hW c q)) fun _ => next_keeps h 4

theorem aluMemReg_keeps (f : Alu w) (c : SpCheck) (a : Word) (q : Byte) : Keeps P (aluMemReg W f c a q) :=
  .bind (aluStep_keeps h (hW.readReg q) (hW.readMem a) (aluWriteMem_keeps h hW c a)) fun _ => next_keeps h 4

theorem cmpRR_keeps (rn rm : Gpr) : Keeps P (cmpRR W rn rm) :=
  .bind (aluStep_keeps h (hW.readGpr rm) (hW.readGpr rn) fun _ => .pure _) fun _ => next_keeps h 2

theorem cmpRI_keeps (rn : Gpr) (ri : BitVec 2) : Keeps P (cmpRI W rn ri) :=
  .bind (aluStep_keeps h (readIndirect_keeps hW _) (hW.readGpr rn) fun _ => .pure _) fun _ => next_keeps h 2

theorem cmpRIP_keeps (rn : Gpr) (ri : BitVec 2) : Keeps P (cmpRIP W rn ri) :=
  .bind (aluStep_keeps h (readPostInc_keeps h hW _) (.ite (hW.open_ 0) (hW.readGpr rn)) fun _ => .pure _) fun _ =>
    next_keeps h 2

theorem cmpR3_keeps (rn : Gpr) (d : BitVec 3) : Keeps P (cmpR3 W rn d) :=
  .bind (aluStep_keeps h (.pure _) (hW.readGpr rn) fun _ => .pure _) fun _ => next_keeps h 2

theorem cmpRegImm_keeps (q : Byte) (d : BitVec w) : Keeps P (cmpRegImm W q d) :=
  .bind (aluStep_keeps h (.pure _) (hW.readReg q) fun _ => .pure _) fun _ => next_keeps h 4

theorem cmpRegMem_keeps (q : Byte) (a : Word) : Keeps P (cmpRegMem W q a) :=
  .bind (aluStep_keeps h (hW.readMem a) (hW.readReg q) fun _ => .pure _) fun _ => next_keeps h 4

theorem unaryGpr_keeps (f : BitVec w → BitVec w × Flags) (rn : Gpr) : Keeps P (unaryGpr W f rn) :=
  .bind (hW.readGpr rn) fun _ => .bind (setFlags_keeps h _) fun _ => .bind (hW.writeGpr rn _) fun _ => next_keeps h 2

omit hW in
theorem moveStep_keeps {source : Act (BitVec w)} {write : BitVec w → Act Unit} (hs : Keeps P source)
    (hw : ∀ v, Keeps P (write v)) : Keeps P (moveStep source write) :=
  .bind hs fun v => .bind (.bind (.look _) fun _ => setFlags_keeps h _) fun _ => hw v

omit h in
theorem writeIndirect_keeps (p : Gpr) (v : BitVec w) : Keeps P (writeIndirect W p v) :=
  .bind (readGpr_keeps p) fun _ => hW.writeMem _ v

omit h hW in
theorem baseOffset_keeps (rm : Gpr) (d : Word) : Keeps P (baseOffset rm d) := .bind (readGpr_keeps rm) fun _ => .pure _

theorem movRIP_keeps (rn rm : Gpr) : Keeps P (movRIP W rn rm) := by
  refine .bind (moveStep_keeps h (readPostInc_keeps h hW rm) fun v => ?_) fun _ => next_keeps h 2
  split
  · exact openPointer_keeps h rm
  · exact hW.writeGpr rn v

theorem movDR_keeps (rm rn : Gpr) : Keeps P (movDR W rm rn) :=
  .bind (stepGpr_keeps h rm _) fun _ =>
    .bind (moveStep_keeps h (.ite (hW.open_ 0) (hW.readGpr rn)) (writeIndirect_keeps hW rm)) fun _ => next_keeps h 2

theorem movIPI_keeps (rn rm : Gpr) : Keeps P (movIPI W rn rm) :=
  .bind (moveStep_keeps h (readIndirect_keeps hW rm) (writeIndirect_keeps hW rn)) fun _ =>
    .bind (stepGpr_keeps h rn _) fun _ => next_keeps h 2

theorem movRX_keeps (rn rm : Gpr) (d : Word) : Keeps P (movRX W rn rm d) :=
  .bind (moveStep_keeps h (.bind (baseOffset_keeps rm d) fun _ => hW.readMem _) (hW.writeGpr rn)) fun _ =>
    next_keeps h 4

theorem movXR_keeps (rm : Gpr) (d : Word) (rn : Gpr) : Keeps P (movXR W rm d rn) :=
  .bind (moveStep_keeps h (hW.readGpr rn) fun v => .bind (baseOffset_keeps rm d) fun _ => hW.writeMem _ v) fun _ =>
    next_keeps h 4

omit hW in
theorem movPlain_keeps {source : Act (BitVec w)} {write : BitVec w → Act Unit} (hs : Keeps P source)
    (hw : ∀ v, Keeps P (write v)) (len : Nat) : Keeps P (movPlain source write len) :=
  .bind (moveStep_keeps h hs hw) fun _ => next_keeps h len

end

section
variable {P : State → Prop} (h : Closed P)
include h

theorem cmpStepGpr_keeps (rn : Gpr) {op2 : Act Word} (h2 : Keeps P op2) (d : Word) (len : Nat) :
    Keeps P (cmpStepGpr rn op2 d len) :=
  .bind (aluStep_keeps h h2 (readGpr_keeps rn) fun _ => .pure _) fun _ => .bind (stepGpr_keeps h rn d) fun _ =>
    next_keeps h len

theorem shiftGpr_keeps (f : Shift) (rn : Gpr) {count : Act (BitVec 4)} (hc : Keeps P count) :
    Keeps P (shiftGpr f rn count) :=
  .bind hc fun _ => .bind (readGpr_keeps rn) fun _ => .bind (setFlags_keeps h _) fun _ =>
    .bind (writeGpr_keeps h rn _) fun _ => next_keeps h 2

omit h in
theorem shiftCount_keeps (rm : Gpr) : Keeps P (shiftCount rm) := .bind (readGpr_keeps rm) fun _ => .pure _

theorem moveExtend_keeps (signed : Bool) {source : Act Byte} {write : Word → Act Unit} (hs : Keeps P source)
    (hw : ∀ v, Keeps P (write v)) (len : Nat) : Keeps P (moveExtend signed source write len) :=
  .bind hs fun _ => .bind (.look _) fun _ => .bind (setFlags_keeps h _) fun _ => .bind (hw _) fun _ => next_keeps h len

theorem bitAssign_keeps (b : Byte) (q : BitVec 4) (v : Bool) : Keeps P (bitAssign b q v) :=
  .bind (bitLoc_keeps b) fun l => .bind (readBitLoc_keeps h l) fun _ => .bind (setFlags_keeps h _) fun _ =>
    .bind (writeBitLoc_keeps h l _ _) fun _ => next_keeps h 2

theorem bitPair_keeps (bz : Byte) (z : BitVec 4) (bq : Byte) (q : BitVec 4) (fl : Bool → Bool → Flags)
    (f : Option (Bool → Bool → Bool)) : Keeps P (bitPair bz z bq q fl f) := by
  refine .bind (bitLoc_keeps bq) fun lq => .bind (readBitLoc_keeps h lq) fun ws => .bind (bitLoc_keeps bz) fun lz => ?_
  have tail : ∀ wd, Keeps P (do
      setFlags (fl (wbit wd z.toNat) (wbit ws q.toNat))
      match f with
      | some g => writeBitLoc lz (wset wd z.toNat (g (wbit wd z.toNat) (wbit ws q.toNat))) (bitMask z.toNat)
      | none => pure ()
      next 4) := fun wd => by
    refine .bind (setFlags_keeps h _) fun _ => ?_
    cases f with
    | some g => exact .bind (writeBitLoc_keeps h lz _ _) fun _ => next_keeps h 4
    | none => exact next_keeps h 4
  exact .ite (tail ws) (.bind (readBitLoc_keeps h lz) tail)

theorem bitField_keeps (b : Byte) (mask data : Word) : Keeps P (bitField b mask data) :=
  .bind (bitLoc_keeps b) fun l => .bind (readBitLoc_keeps h l) fun _ => .bind (setFlags_keeps h _) fun _ =>
    .bind (writeBitLoc_keeps h l _ _) fun _ => next_keeps h 4

theorem jumpBit_keeps (b : Byte) (q : BitVec 4) (rel : Byte) (v : Bool) : Keeps P (jumpBit b q rel v) :=
  .bind (bitLoc_keeps b) fun l => .bind (readBitLoc_keeps h l) fun _ =>
    .ite (.bind (.look _) fun t => cacheJump_keeps h t) (next_keeps h 4)

theorem jumpBitChange_keeps (b : Byte) (q : BitVec 4) (rel : Byte) (v : Bool) : Keeps P (jumpBitChange b q rel v) :=
  .bind (bitLoc_keeps b) fun l => .bind (readBitLoc_keeps h l) fun _ => .bind (.look _) fun _ =>
    .bind (setFlags_keeps h _) fun _ =>
    .ite (.bind (writeBitLoc_keeps h l _ _) fun _ => .bind (.look _) fun t => cacheJump_keeps h t) (next_keeps h 4)

theorem pushReturn_keeps (len : Nat) : Keeps P (pushReturn len) := .bind (.look _) fun v => push_keeps h v

theorem setMoveFlags_keeps {w : Nat} (v : BitVec w) : Keeps P (setMoveFlags v) :=
  .bind (.look _) fun _ => setFlags_keeps h _

omit h in
theorem pageOf_keeps (rm : Gpr) : Keeps P (pageOf rm) := .bind (readGpr_keeps rm) fun _ => .pure _

omit h in
theorem segOf_keeps (rm : Gpr) : Keeps P (segOf rm) := .bind (readGpr_keeps rm) fun _ => .pure _

theorem extend_keeps (hx : ∀ (s : State) (e : Ext), P s → P { s with sys := { s.sys with ext := e } }) (count : Nat)
    (esfr : Bool) {ovr : Act Override} (ho : Keeps P ovr) (len : Nat) : Keeps P (extend count esfr ovr len) :=
  .bind ho fun _ => .bind (.change fun s => hx s _) fun _ => next_keeps h len

/-! ## The protected instructions -/

theorem softwareReset_keeps : Keeps P softwareReset := .change fun _ => h.rest rfl

theorem enterIdle_keeps : Keeps P enterIdle := .bind (next_keeps h 4) fun _ => .change fun _ => h.rest rfl

theorem enterPowerDown_keeps : Keeps P enterPowerDown := by
  refine .bind (next_keeps h 4) fun _ => .change fun s hs => ?_
  split
  · exact hs
  · exact h.rest (s := s) rfl hs

theorem serviceWatchdog_keeps : Keeps P serviceWatchdog := .bind (.change fun _ => h.rest rfl) fun _ => next_keeps h 4

theorem disableWatchdog_keeps : Keeps P disableWatchdog := .bind (.change fun _ => h.rest rfl) fun _ => next_keeps h 4

theorem endOfInit_keeps : Keeps P endOfInit := .bind (.change fun _ => h.rest rfl) fun _ => next_keeps h 4

/-! ## Instructions -/

/-- An instruction whose meaning keeps `P`. -/
theorem next_of_keeps {a : Act Unit} {s t : State} (ha : Keeps P a) (hs : P s) (ht : a.toOutcome s = .next t) :
    P t := by
  rcases Act.toOutcome_next ht with hok | ⟨w, -, rfl⟩
  · exact ha s () t hs hok
  · exact h.rest (s := s) rfl hs

end

/-- An instruction that starts no locked sequence keeps what survives every elementary change; the ten that start one
do if `P` survives a new locked sequence. -/
theorem exec_keeps {P : State → Prop} (h : Closed P) {i : Instr}
    (hx : isExtension i = true → ∀ (s : State) (e : Ext), P s → P { s with sys := { s.sys with ext := e } })
    {s t : State} (hs : P s) (ht : exec i s = .next t) : P t := by
  have hw := wordW_keeps h
  have hb := byteW_keeps h
  have by_keeps : ∀ a : Act Unit, Keeps P a → exec i s = a.toOutcome s → P t :=
    fun a ha hi => next_of_keeps h ha hs (hi ▸ ht)
  match i with
  | .addRR rn rm | .addcRR rn rm | .subRR rn rm | .subcRR rn rm | .xorRR rn rm | .andRR rn rm | .orRR rn rm =>
    exact by_keeps _ (aluRR_keeps h hw _ rn rm) rfl
  | .addRI rn ri | .addcRI rn ri | .subRI rn ri | .subcRI rn ri | .xorRI rn ri | .andRI rn ri | .orRI rn ri =>
    exact by_keeps _ (aluRI_keeps h hw _ rn ri) rfl
  | .addRIP rn ri | .addcRIP rn ri | .subRIP rn ri | .subcRIP rn ri | .xorRIP rn ri | .andRIP rn ri | .orRIP rn ri =>
    exact by_keeps _ (aluRIP_keeps h hw _ rn ri) rfl
  | .addR3 rn d | .addcR3 rn d | .subR3 rn d | .subcR3 rn d | .xorR3 rn d | .andR3 rn d | .orR3 rn d =>
    exact by_keeps _ (aluR3_keeps h hw _ rn d) rfl
  | .addRegImm q d | .addcRegImm q d | .subRegImm q d | .subcRegImm q d | .xorRegImm q d | .andRegImm q d
  | .orRegImm q d => exact by_keeps _ (aluRegImm_keeps h hw _ _ q d) rfl
  | .addRegMem q a | .addcRegMem q a | .subRegMem q a | .subcRegMem q a | .xorRegMem q a | .andRegMem q a
  | .orRegMem q a => exact by_keeps _ (aluRegMem_keeps h hw _ _ q a) rfl
  | .addMemReg a q | .addcMemReg a q | .subMemReg a q | .subcMemReg a q | .xorMemReg a q | .andMemReg a q
  | .orMemReg a q => exact by_keeps _ (aluMemReg_keeps h hw _ _ a q) rfl
  | .cmpRR rn rm => exact by_keeps _ (cmpRR_keeps h hw rn rm) rfl
  | .cmpRI rn ri => exact by_keeps _ (cmpRI_keeps h hw rn ri) rfl
  | .cmpRIP rn ri => exact by_keeps _ (cmpRIP_keeps h hw rn ri) rfl
  | .cmpR3 rn d => exact by_keeps _ (cmpR3_keeps h hw rn d) rfl
  | .cmpRegImm q d => exact by_keeps _ (cmpRegImm_keeps h hw q d) rfl
  | .cmpRegMem q a => exact by_keeps _ (cmpRegMem_keeps h hw q a) rfl
  | .movRR rn rm => exact by_keeps _ (movPlain_keeps h (hw.readGpr rm) (hw.writeGpr rn) 2) rfl
  | .movR4 rn d => exact by_keeps _ (movPlain_keeps h (.pure _) (hw.writeGpr rn) 2) rfl
  | .movRegImm q d => exact by_keeps _ (movPlain_keeps h (.pure d) (hw.writeReg q) 4) rfl
  | .movRI rn rm => exact by_keeps _ (movPlain_keeps h (readIndirect_keeps hw rm) (hw.writeGpr rn) 2) rfl
  | .movRIP rn rm => exact by_keeps _ (movRIP_keeps h hw rn rm) rfl
  | .movIR rm rn => exact by_keeps _ (movPlain_keeps h (hw.readGpr rn) (writeIndirect_keeps hw rm) 2) rfl
  | .movDR rm rn => exact by_keeps _ (movDR_keeps h hw rm rn) rfl
  | .movII rn rm => exact by_keeps _ (movPlain_keeps h (readIndirect_keeps hw rm) (writeIndirect_keeps hw rn) 2) rfl
  | .movIPI rn rm => exact by_keeps _ (movIPI_keeps h hw rn rm) rfl
  | .movIIP rn rm => exact by_keeps _ (movPlain_keeps h (readPostInc_keeps h hw rm) (writeIndirect_keeps hw rn) 2) rfl
  | .movRX rn rm d => exact by_keeps _ (movRX_keeps h hw rn rm d) rfl
  | .movXR rm d rn => exact by_keeps _ (movXR_keeps h hw rm d rn) rfl
  | .movIMem rn a => exact by_keeps _ (movPlain_keeps h (hw.readMem a) (writeIndirect_keeps hw rn) 4) rfl
  | .movMemI a rn => exact by_keeps _ (movPlain_keeps h (readIndirect_keeps hw rn) (hw.writeMem a) 4) rfl
  | .movRegMem q a => exact by_keeps _ (movPlain_keeps h (hw.readMem a) (hw.writeReg q) 4) rfl
  | .movMemReg a q => exact by_keeps _ (movPlain_keeps h (hw.readReg q) (hw.writeMem a) 4) rfl
  | .addbRR rn rm | .addcbRR rn rm | .subbRR rn rm | .subcbRR rn rm | .xorbRR rn rm | .andbRR rn rm | .orbRR rn rm =>
    exact by_keeps _ (aluRR_keeps h hb _ rn rm) rfl
  | .addbRI rn ri | .addcbRI rn ri | .subbRI rn ri | .subcbRI rn ri | .xorbRI rn ri | .andbRI rn ri | .orbRI rn ri =>
    exact by_keeps _ (aluRI_keeps h hb _ rn ri) rfl
  | .addbRIP rn ri | .addcbRIP rn ri | .subbRIP rn ri | .subcbRIP rn ri | .xorbRIP rn ri | .andbRIP rn ri
  | .orbRIP rn ri => exact by_keeps _ (aluRIP_keeps h hb _ rn ri) rfl
  | .addbR3 rn d | .addcbR3 rn d | .subbR3 rn d | .subcbR3 rn d | .xorbR3 rn d | .andbR3 rn d | .orbR3 rn d =>
    exact by_keeps _ (aluR3_keeps h hb _ rn d) rfl
  | .addbRegImm q d | .addcbRegImm q d | .subbRegImm q d | .subcbRegImm q d | .xorbRegImm q d | .andbRegImm q d
  | .orbRegImm q d => exact by_keeps _ (aluRegImm_keeps h hb _ _ q d) rfl
  | .addbRegMem q a | .addcbRegMem q a | .subbRegMem q a | .subcbRegMem q a | .xorbRegMem q a | .andbRegMem q a
  | .orbRegMem q a => exact by_keeps _ (aluRegMem_keeps h hb _ _ q a) rfl
  | .addbMemReg a q | .addcbMemReg a q | .subbMemReg a q | .subcbMemReg a q | .xorbMemReg a q | .andbMemReg a q
  | .orbMemReg a q => exact by_keeps _ (aluMemReg_keeps h hb _ _ a q) rfl
  | .cmpbRR rn rm => exact by_keeps _ (cmpRR_keeps h hb rn rm) rfl
  | .cmpbRI rn ri => exact by_keeps _ (cmpRI_keeps h hb rn ri) rfl
  | .cmpbRIP rn ri => exact by_keeps _ (cmpRIP_keeps h hb rn ri) rfl
  | .cmpbR3 rn d => exact by_keeps _ (cmpR3_keeps h hb rn d) rfl
  | .cmpbRegImm q d => exact by_keeps _ (cmpRegImm_keeps h hb q d) rfl
  | .cmpbRegMem q a => exact by_keeps _ (cmpRegMem_keeps h hb q a) rfl
  | .movbRR rn rm => exact by_keeps _ (movPlain_keeps h (hb.readGpr rm) (hb.writeGpr rn) 2) rfl
  | .movbR4 rn d => exact by_keeps _ (movPlain_keeps h (.pure _) (hb.writeGpr rn) 2) rfl
  | .movbRegImm q d => exact by_keeps _ (movPlain_keeps h (.pure d) (hb.writeReg q) 4) rfl
  | .movbRI rn rm => exact by_keeps _ (movPlain_keeps h (readIndirect_keeps hb rm) (hb.writeGpr rn) 2) rfl
  | .movbRIP rn rm => exact by_keeps _ (movRIP_keeps h hb rn rm) rfl
  | .movbIR rm rn => exact by_keeps _ (movPlain_keeps h (hb.readGpr rn) (writeIndirect_keeps hb rm) 2) rfl
  | .movbDR rm rn => exact by_keeps _ (movDR_keeps h hb rm rn) rfl
  | .movbII rn rm => exact by_keeps _ (movPlain_keeps h (readIndirect_keeps hb rm) (writeIndirect_keeps hb rn) 2) rfl
  | .movbIPI rn rm => exact by_keeps _ (movIPI_keeps h hb rn rm) rfl
  | .movbIIP rn rm => exact by_keeps _ (movPlain_keeps h (readPostInc_keeps h hb rm) (writeIndirect_keeps hb rn) 2) rfl
  | .movbRX rn rm d => exact by_keeps _ (movRX_keeps h hb rn rm d) rfl
  | .movbXR rm d rn => exact by_keeps _ (movXR_keeps h hb rm d rn) rfl
  | .movbIMem rn a => exact by_keeps _ (movPlain_keeps h (hb.readMem a) (writeIndirect_keeps hb rn) 4) rfl
  | .movbMemI a rn => exact by_keeps _ (movPlain_keeps h (readIndirect_keeps hb rn) (hb.writeMem a) 4) rfl
  | .movbRegMem q a => exact by_keeps _ (movPlain_keeps h (hb.readMem a) (hb.writeReg q) 4) rfl
  | .movbMemReg a q => exact by_keeps _ (movPlain_keeps h (hb.readReg q) (hb.writeMem a) 4) rfl
  | .movbsRR rn rm | .movbzRR rn rm =>
    exact by_keeps _ (moveExtend_keeps h _ (readGprB_keeps rm) (writeGpr_keeps h rn) 2) rfl
  | .movbsRegMem q a | .movbzRegMem q a =>
    exact by_keeps _ (moveExtend_keeps h _ (readMemB_keeps h a) (writeReg_keeps h q) 4) rfl
  | .movbsMemReg a q | .movbzMemReg a q =>
    exact by_keeps _ (moveExtend_keeps h _ (readRegB_keeps h q) (writeMem_keeps h a) 4) rfl
  | .mul rn rm | .mulu rn rm => exact by_keeps _ (multiply_keeps h _ _ _ rn rm) rfl
  | .div rn | .divu rn | .divl rn | .divlu rn => exact by_keeps _ (divide_keeps h _ _ rn) rfl
  | .cpl rn | .neg rn => exact by_keeps _ (unaryGpr_keeps h hw _ rn) rfl
  | .cplb rn | .negb rn => exact by_keeps _ (unaryGpr_keeps h hb _ rn) rfl
  | .cmpi1R4 rn d | .cmpi2R4 rn d | .cmpd1R4 rn d | .cmpd2R4 rn d =>
    exact by_keeps _ (cmpStepGpr_keeps h rn (.pure _) _ 2) rfl
  | .cmpi1R16 rn d | .cmpi2R16 rn d | .cmpd1R16 rn d | .cmpd2R16 rn d =>
    exact by_keeps _ (cmpStepGpr_keeps h rn (.pure _) _ 4) rfl
  | .cmpi1RMem rn a | .cmpi2RMem rn a | .cmpd1RMem rn a | .cmpd2RMem rn a =>
    exact by_keeps _ (cmpStepGpr_keeps h rn (readMem_keeps h a) _ 4) rfl
  | .bfldl b m d | .bfldh b m d => exact by_keeps _ (bitField_keeps h b _ _) rfl
  | .bcmp bz z bq q | .bmovn bz z bq q | .bmov bz z bq q | .bor bz z bq q | .band bz z bq q | .bxor bz z bq q =>
    exact by_keeps _ (bitPair_keeps h bz z bq q _ _) rfl
  | .bclr b q | .bset b q => exact by_keeps _ (bitAssign_keeps h b q _) rfl
  | .rolRR rn rm | .rorRR rn rm | .shlRR rn rm | .shrRR rn rm | .ashrRR rn rm =>
    exact by_keeps _ (shiftGpr_keeps h _ rn (shiftCount_keeps rm)) rfl
  | .rolR4 rn d | .rorR4 rn d | .shlR4 rn d | .shrR4 rn d | .ashrR4 rn d =>
    exact by_keeps _ (shiftGpr_keeps h _ rn (.pure d)) rfl
  | .prior rn rm =>
    exact by_keeps _ (.bind (readGpr_keeps rm) fun _ => .bind (setFlags_keeps h _) fun _ =>
      .bind (writeGpr_keeps h rn _) fun _ => next_keeps h 2) rfl
  | .push q =>
    exact by_keeps _ (.bind (readReg_keeps h q) fun v => .bind (push_keeps h v) fun _ =>
      .bind (setMoveFlags_keeps h v) fun _ => next_keeps h 2) rfl
  | .pop q =>
    exact by_keeps _ (.bind (pop_keeps h) fun v => .bind (setMoveFlags_keeps h v) fun _ =>
      .bind (writeReg_keeps h q v) fun _ => next_keeps h 2) rfl
  | .scxtRegImm q d =>
    exact by_keeps _ (.bind (readReg_keeps h q) fun v => .bind (push_keeps h v) fun _ =>
      .bind (writeReg_keeps h q d) fun _ => next_keeps h 4) rfl
  | .scxtRegMem q a =>
    exact by_keeps _ (.bind (.look _) fun _ => .ite (.bind (raiseTrap_keeps h _ rfl) fun _ => next_keeps h 4)
      (.bind (readReg_keeps h q) fun v => .bind (readMem_keeps h a) fun x => .bind (push_keeps h v) fun _ =>
        .bind (writeReg_keeps h q x) fun _ => next_keeps h 4)) rfl
  | .jmpa cc a =>
    exact by_keeps _ (.bind (.look _) fun _ => .ite (.bind (absolute_keeps h a) fun _ => cacheJump_keeps h a)
      (next_keeps h 4)) rfl
  | .jmpi cc rn =>
    exact by_keeps _ (.bind (.look _) fun _ => .ite (.bind (readGpr_keeps rn) fun t => jump_keeps h t)
      (next_keeps h 2)) rfl
  | .jmpr cc rel =>
    exact by_keeps _ (.bind (.look _) fun _ => .ite (.bind (.look _) fun t => cacheJump_keeps h t) (next_keeps h 2)) rfl
  | .jmps seg a =>
    exact by_keeps _ (.bind (setCsp_keeps h seg) fun _ => .bind (absolute_keeps h a) fun _ =>
      .bind (flushCache_keeps h) fun _ => jump_keeps h a) rfl
  | .jb b q rel | .jnb b q rel => exact by_keeps _ (jumpBit_keeps h b q rel _) rfl
  | .jbc b q rel | .jnbs b q rel => exact by_keeps _ (jumpBitChange_keeps h b q rel _) rfl
  | .calla cc a =>
    exact by_keeps _ (.bind (.look _) fun _ => .ite (.bind (pushReturn_keeps h 4) fun _ =>
      .bind (absolute_keeps h a) fun _ => jump_keeps h a) (next_keeps h 4)) rfl
  | .calli cc rn =>
    exact by_keeps _ (.bind (.look _) fun _ => .ite (.bind (readGpr_keeps rn) fun t =>
      .bind (pushReturn_keeps h 2) fun _ => jump_keeps h t) (next_keeps h 2)) rfl
  | .callr rel => exact by_keeps _ (.bind (.look _) fun t => .bind (pushReturn_keeps h 2) fun _ => jump_keeps h t) rfl
  | .calls seg a =>
    exact by_keeps _ (.bind (.look _) fun _ => .bind (push_keeps h _) fun _ => .bind (pushReturn_keeps h 4) fun _ =>
      .bind (setCsp_keeps h seg) fun _ => .bind (absolute_keeps h a) fun _ => .bind (flushCache_keeps h) fun _ =>
      jump_keeps h a) rfl
  | .pcall q a =>
    exact by_keeps _ (.bind (readReg_keeps h q) fun v => .bind (push_keeps h v) fun _ =>
      .bind (pushReturn_keeps h 4) fun _ => .bind (setMoveFlags_keeps h v) fun _ => jump_keeps h a) rfl
  | .trap n => exact by_keeps _ (.bind (.look _) fun ret => enter_keeps h _ none ret false) rfl
  | .ret => exact by_keeps _ (.bind (pop_keeps h) fun ip => jump_keeps h ip) rfl
  | .rets =>
    exact by_keeps _ (.bind (pop_keeps h) fun ip => .bind (pop_keeps h) fun _ => .bind (setCsp_keeps h _) fun _ =>
      .bind (flushCache_keeps h) fun _ => jump_keeps h ip) rfl
  | .retp q =>
    exact by_keeps _ (.bind (pop_keeps h) fun ip => .bind (pop_keeps h) fun v => .bind (setMoveFlags_keeps h v) fun _ =>
      .bind (writeReg_keeps h q v) fun _ => jump_keeps h ip) rfl
  | .reti => exact by_keeps _ (returnFromTrap_keeps h) rfl
  | .srst => exact by_keeps _ (softwareReset_keeps h) rfl
  | .idle => exact by_keeps _ (enterIdle_keeps h) rfl
  | .pwrdn => exact by_keeps _ (enterPowerDown_keeps h) rfl
  | .srvwdt => exact by_keeps _ (serviceWatchdog_keeps h) rfl
  | .diswdt => exact by_keeps _ (disableWatchdog_keeps h) rfl
  | .einit => exact by_keeps _ (endOfInit_keeps h) rfl
  | .nop => exact by_keeps _ (next_keeps h 2) rfl
  | .atomic n | .extr n => exact by_keeps _ (extend_keeps h (hx rfl) n _ (.pure _) _) rfl
  | .extpImm p n | .extprImm p n => exact by_keeps _ (extend_keeps h (hx rfl) n _ (.pure _) _) rfl
  | .extsImm g n | .extsrImm g n => exact by_keeps _ (extend_keeps h (hx rfl) n _ (.pure _) _) rfl
  | .extpR rm n | .extprR rm n => exact by_keeps _ (extend_keeps h (hx rfl) n _ (pageOf_keeps rm) _) rfl
  | .extsR rm n | .extsrR rm n => exact by_keeps _ (extend_keeps h (hx rfl) n _ (segOf_keeps rm) _) rfl

end Sys2Proof.Machine

namespace Sys2Proof.Machine

/-! ## The clocks -/

namespace Closed

variable {P : State → Prop} {s : State}

theorem xbusWrite (h : Closed P) (a : Addr) (v : Byte) (hs : P s) : P (s.xbusWrite a v) := by
  unfold State.xbusWrite
  dsimp only
  refine ite _ hs (ite _ (h.foreignStore _ v hs) (ite _ ?_ hs))
  split
  · exact h.rest (s := s) rfl hs
  · exact h.unit (by simp) hs

theorem canEvent (h : Closed P) {f : State → State} (hf : ∀ u, (f u).cpu = u.cpu) (hs : P s) : P (s.canEvent f) :=
  ite _ (h.unit (hf s) hs) hs

/-- NMI falls: its flag is set, and its edge noted. -/
theorem nmi (h : Closed P) (level : Bool) (hs : P s) : P (s.event (.nmi level)) := by
  have ht : P { s with env := { s.env with nmi := level } } := h.rest (s := s) rfl hs
  exact ite _ (h.rest (s := { s with env := { s.env with nmi := level } }.raise tfrNmi) rfl (h.raise _ rfl ht)) ht

theorem event (h : Closed P) (e : EnvEvent) (hs : P s) : P (s.event e) := by
  cases e with
  | pins | ready | rstin | strap | analog => exact h.rest (s := s) rfl hs
  | nmi level => exact h.nmi level hs
  | pllUnlock => exact ite _ (h.unit (request_cpu s _) hs) hs
  | extWrite cs a v => exact h.foreignStore _ v hs
  | xbusWrite a v => exact h.xbusWrite a v hs
  | xbusRead a => exact ite _ (h.unit (canReadStatus_cpu s) hs) hs
  | canRx f r t => exact h.canEvent (fun u => canRxFrame_cpu u f r t) hs
  | canTxDone r t => exact h.canEvent (fun u => canTxDone_cpu u r t) hs
  | canError c r t => exact h.canEvent (fun u => canBusError_cpu u c r t) hs
  | canRecessive => exact h.canEvent canRecessive_cpu hs
  | canRecovered => exact h.canEvent canRecover_cpu hs
  | boot => exact hs

theorem eventAsleep (h : Closed P) (e : EnvEvent) (hs : P s) : P (s.eventAsleep e) := by
  cases e with
  | pins p v => exact h.event (.pins p v) hs
  | ready l => exact h.event (.ready l) hs
  | rstin p => exact h.event (.rstin p) hs
  | strap ea p => exact h.event (.strap ea p) hs
  | analog c v => exact h.event (.analog c v) hs
  | extWrite c a v => exact h.event (.extWrite c a v) hs
  | nmi => exact h.rest (s := s) rfl hs
  | _ => exact hs

theorem applyDue (h : Closed P) (l : List (Nat × EnvEvent)) (hs : P s) : P (applyDue l s) := by
  induction l generalizing s with
  | nil => exact h.rest (s := s) rfl hs
  | cons c l ih =>
    obtain ⟨n, e⟩ := c
    cases n with
    | zero => exact ih (h.event e hs)
    | succ n => exact h.rest (s := s) rfl hs

theorem holdTick (h : Closed P) (hs : P s) : P s.holdTick := ite _ hs (h.rest (s := s) rfl hs)

theorem fastExternal (h : Closed P) (hs : P s) : P s.fastExternal := by
  unfold State.fastExternal
  dsimp only
  refine h.rest (by rfl) (h.unit (foldl_cpu (fun t x => ?_) (List.finRange 8) s) hs)
  split <;> rfl

theorem wdtTick (h : Closed P) (hs : P s) : P s.wdtTick :=
  have hpre : ∀ y : Sys, y.ext = s.sys.ext → P { s with sys := y } := fun y hy =>
    h.rest (s := s) (by rw [held_mk, hy]; rfl) hs
  ite _ hs (ite _ (hpre _ rfl) (ite _ (hpre _ rfl) (h.unit (setReg_cpu _ _ _) (hpre _ rfl))))

theorem tick (h : Closed P) (hs : P s) : P s.tick := by
  have ht : P (Machine.applyDue s.env.inbox s).holdTick := h.holdTick (h.applyDue _ hs)
  have hc : P { (Machine.applyDue s.env.inbox s).holdTick with
      clock := (Machine.applyDue s.env.inbox s).holdTick.clock + 1 } := h.rest (by rfl) ht
  exact h.wdtTick (h.fastExternal (h.unit (units_cpu _ _) hc))

theorem clocks (h : Closed P) (n : Nat) (hs : P s) : P (State.clocks n s) := by
  induction n generalizing s with
  | zero => exact hs
  | succ n ih => exact ih (h.tick hs)

theorem overwrite (h : Closed P) (r : Sfr) (w m : Word) (hs : P s) : P (s.overwrite r w m) := by
  refine ite _ (ite _ ?_ hs) (ite _ (ite _ (h.rest (s := s) rfl hs) hs) (h.unit (setReg_cpu s _ _) hs))
  refine h.rest (s := { s with core := { s.core with tfr := wset s.core.tfr 15 false } }) rfl
    (h.core _ (fun hw => Core.hardwired_tfr ?_ hw) hs)
  rw [wset_and _ _ _ _ (by rfl), hw.tfr_reserved]

theorem sameState (h : Closed P) (hs : P s) : P s.sameState := by
  unfold State.sameState
  split
  · exact hs
  · exact ite _ (h.overwrite _ _ _ hs) hs

theorem lostUpdate (h : Closed P) (hs : P s) : P s.lostUpdate := by
  unfold State.lostUpdate
  split
  · exact hs
  · have ht : P { s with sys := { s.sys with wrote := none } } := h.rest (s := s) rfl hs
    exact ite _ (h.overwrite _ _ _ ht) ht

theorem pass (h : Closed P) (hs : P s) : P s.pass :=
  h.unit (busLatches_cpu _) (h.lostUpdate (h.clocks _ (h.sameState (h.tick hs))))

theorem notePrefetch (h : Closed P) (hs : P s) : P s.notePrefetch := by
  have ht : P s.refill := by
    unfold State.refill
    exact ite _ (h.rest (s := s) rfl hs) hs
  unfold State.notePrefetch
  dsimp only
  exact ite _ (h.rest (s := s.refill) rfl ht) ht

theorem afterInjected (h : Closed P) (hs : P s) : P s.afterInjected :=
  h.rest (s := s.pass.notePrefetch) rfl (h.notePrefetch (h.pass hs))

theorem elapse (h : Closed P) (hs : P s) : P s.elapse :=
  h.rest (s := s.pass.notePrefetch) rfl (h.notePrefetch (h.pass hs))

theorem stall (h : Closed P) (w : List (Nat × Byte)) (hs : P s) : P (s.stall w) :=
  h.rest (s := s.elapse) rfl (h.elapse hs)

end Closed

theorem pecCount_cpu (s : State) (ic : Sfr) (ch : Fin 8) (n : Nat) : (s.pecCount ic ch n).cpu = s.cpu := by
  simp [State.pecCount, apply_ite State.cpu]

/-- `P` does not read the mode of a locked sequence. -/
def LockFree (P : State → Prop) : Prop :=
  ∀ (s : State) (e : Ext), P s → P { s with sys := { s.sys with ext := e } }

section
variable {P : State → Prop} (h : Closed P) (hx : LockFree P)
include h hx

theorem finish_keeps {s : State} (i : Instr) (hs : P s) : P (s.finish i) := by
  have ht : P (s.settle i) := h.rest (s := { s with sys := { s.sys with ext := (s.settle i).sys.ext } }) rfl (hx s _ hs)
  unfold State.finish
  dsimp only
  exact Closed.ite _ hs (h.rest (s := (s.settle i).pass.notePrefetch) rfl (h.notePrefetch (h.pass ht)))

theorem enterHardware_keeps (n : Nat) (level : BitVec 4) (ret : Word) (mulip : Bool) :
    Keeps P (enterHardware n level ret mulip) :=
  .bind (enter_keeps h n _ ret mulip) fun _ => .change fun s hs =>
    h.rest (s := { s with sys := { s.sys with ext := { count := 0, esfr := false, ovr := .none } } }) rfl (hx s _ hs)

omit hx in
theorem takeResume_keeps : Keeps P takeResume :=
  .bind (.look _) fun _ => .bind (.change fun s hs => h.rest (s := s) rfl hs) fun _ => .pure _

theorem takeTrap_keeps (n : Nat) (mask : Word) (classA : Bool) : Keeps P (takeTrap n mask classA) :=
  .bind (.change fun s hs => h.rest (s := s) rfl hs) fun _ =>
    .bind (.change fun s hs => h.rest (s := s) rfl hs) fun _ =>
    .bind (.look _) fun ret => enterHardware_keeps h hx n 15 ret false

theorem takeInterrupt_keeps (ic : Sfr) (vec level : Nat) : Keeps P (takeInterrupt ic vec level) :=
  .bind (.change fun s => h.unit (setRegBit_cpu s _ _ _)) fun _ => .bind (takeResume_keeps h) fun _ =>
    .bind (.look _) fun ret => enterHardware_keeps h hx vec _ ret _

theorem interruptMul_keeps (ic : Sfr) (vec level : Nat) (m : MulInstr) : Keeps P (interruptMul ic vec level m) :=
  .bind (readGpr_keeps _) fun _ => .bind (readGpr_keeps _) fun _ => .bind (resumeFrame_keeps h _ _ _) fun _ =>
    .bind (.look _) fun k0 => .bind (.look _) fun k1 => .bind (.look _) fun k2 =>
    .bind (.change fun s hs => h.rest
      (s := { s with core := { s.core with mdh := k0, mdl := k1, mdc := 0x10 ||| (k2 &&& 0xEF) } }) rfl
      (mdc_keeps h k0 k1 k2 hs)) fun _ =>
    .bind (.change fun s => h.unit (setRegBit_cpu s _ _ _)) fun _ => .bind (.look _) fun ret =>
    enterHardware_keeps h hx vec _ ret true

omit hx in
theorem pecTransfer_keeps (ic : Sfr) (ch : Fin 8) : Keeps P (pecTransfer ic ch) := by
  refine .bind (.look _) fun src => .bind (.look _) fun dst => .bind (.look _) fun con => ?_
  have tail : ∀ step : Word, Keeps P (change (fun s =>
      match fieldNat con 9 2 with
      | 0 => s
      | 1 => s.storeWord (pecPointer ch + 2) (dst + step)
      | _ => s.storeWord (pecPointer ch) (src + step)) >>= fun _ =>
      change (fun s => s.pecCount ic ch (fieldNat con 0 8))) := fun step => by
    refine .bind (.change fun s hs => ?_) fun _ => .change fun s => h.unit (pecCount_cpu s _ _ _)
    split
    · exact hs
    · exact h.storeWord _ _ hs
    · exact h.storeWord _ _ hs
  refine .ite (raiseTrap_keeps h _ rfl) (.ite ?_ ?_)
  · exact .bind (readByte_keeps h _) fun v => .bind (writeByte_keeps h _ v) fun _ => tail _
  · exact .bind (readWord_keeps h _) fun v => .bind (writeWord_keeps h _ v) fun _ => tail _

end
end Sys2Proof.Machine

namespace Sys2Proof.Machine

/-! ## The instruction boundary -/

/-- The next state that an outcome answers, if it answers one, has `P`. -/
def Lands (P : State → Prop) (r : Result) : Prop := ∀ t, r = .next t → P t

namespace Lands

variable {P : State → Prop}

theorem next {t : State} (ht : P t) : Lands P (.next t) := by rintro u ⟨⟩; exact ht
theorem refused (r : Refusal) : Lands P (.refused r) := by rintro u ⟨⟩
theorem fault (f : Fault) : Lands P (.fault f) := by rintro u ⟨⟩

theorem some {r : Result} (hr : Lands P r) : ∀ q ∈ Option.some r, Lands P q := by rintro q ⟨rfl⟩; exact hr
theorem none : ∀ q ∈ (Option.none : Option Result), Lands P q := by rintro q ⟨⟩

end Lands

section
variable {P : State → Prop} (h : Closed P)
include h

theorem awake_keeps {s : State} (hs : P s) : P s.awake := h.rest (s := s) rfl hs

/-- An injected sequence that keeps `P`, or that waits. -/
theorem inject_lands {s : State} {a : Act Unit} (ha : Keeps P a) (hs : P s) : Lands P (s.inject a) := by
  unfold State.inject
  split
  · rename_i t ht
    have hp : P { s with sys := { s.sys with waiting := false } } := h.rest (s := s) rfl hs
    exact .next (Closed.ite _ (h.elapse hs) (h.afterInjected (next_of_keeps h ha hp ht)))
  · exact .fault _
  · exact .refused _

theorem injectPec_lands {s : State} (ic : Sfr) (ch : Fin 8) (hs : P s) : Lands P (s.injectPec ic ch) := by
  unfold State.injectPec
  split
  · rename_i t ht
    have hp : P { s with sys := { s.sys with waiting := false, pecWait := none } } := h.rest (s := s) rfl hs
    exact .next (Closed.ite _ (h.rest (s := s.elapse) rfl (h.elapse hs))
      (h.afterInjected (next_of_keeps h (pecTransfer_keeps h ic ch) hp ht)))
  · exact .fault _
  · exact .refused _

theorem illegal_lands {s : State} (m : Word) (hm : m &&& 0x1F70 = 0) (hs : P s) : Lands P (s.illegal m) := by
  have ht : P { s.raise m with sys := { (s.raise m).sys with waiting := false } } :=
    h.rest (s := s.raise m) rfl (h.raise m hm hs)
  unfold State.illegal
  dsimp only
  split
  · exact .refused _
  · exact .next (h.elapse ht)

theorem fetchError_keeps {s : State} (hs : P s) : P s.fetchError :=
  h.rest (s := ((s.raise tfrIllbus).advance 2).elapse) rfl (h.elapse (h.advance 2 (h.raise _ rfl hs)))

theorem asleep_keeps {s : State} (hs : P s) : P s.asleep := by
  unfold State.asleep
  split
  · exact hs
  · exact h.rest (s := s.eventAsleep _) rfl (h.eventAsleep _ hs)

end

section
variable {P : State → Prop} (h : Closed P) (hx : LockFree P)
include h hx

theorem runPlain_lands {s : State} (i : Instr) (hs : P s) : Lands P (s.runPlain i) := by
  unfold State.runPlain
  split
  · rename_i t ht
    have hp : P { s with sys := { s.sys with waiting := false } } := h.rest (s := s) rfl hs
    exact .next (Closed.ite _ (h.stall _ hs) (finish_keeps h hx i (exec_keeps h (fun _ => hx) hp ht)))
  · exact .fault _
  · exact .refused _

theorem runMul_lands {s : State} (i : Instr) (m : MulInstr) (hs : P s) : Lands P (s.runMul i m) := by
  unfold State.runMul
  split
  · have hu := h.clocks (Config.freeNat .partClocks s.free 0) hs
    dsimp only
    split
    · exact inject_lands h (interruptMul_keeps h hx _ _ _ m) hu
    · exact .refused _
    · exact injectPec_lands h _ _ hu
    · exact runPlain_lands h hx i hu
  · exact runPlain_lands h hx i hs

theorem runDecoded_lands {s : State} (i : Instr) (hs : P s) : Lands P (s.runDecoded i) := by
  unfold State.runDecoded
  split
  · exact runMul_lands h hx i _ hs
  · split
    · exact .refused _
    · exact runPlain_lands h hx i hs

theorem runNext_lands {s : State} (hs : P s) : Lands P s.runNext := by
  have hfetch : Keeps P fetch := fetch_keeps fun u _ _ hu => h.rest (s := u) rfl hu
  unfold State.runNext
  split
  · exact .refused _
  split
  · exact .next (h.stall _ hs)
  · exact .fault _
  · exact .refused _
  · rename_i u hu
    exact .next (fetchError_keeps h (hfetch s _ u hs hu))
  · rename_i bytes u hu
    have hp : P u := hfetch s _ u hs hu
    split
    · exact runDecoded_lands h hx _ hp
    · exact illegal_lands h _ rfl hp
    · exact illegal_lands h _ rfl hp
    · exact .refused _
    · exact .refused _

theorem roundStep_lands {s : State} (hs : P s) : ∀ r ∈ s.roundStep, Lands P r := by
  unfold State.roundStep
  split
  · split
    · exact Lands.none
    · exact (Lands.refused _).some
    · split
      · exact (injectPec_lands h _ _ hs).some
      · exact Lands.none
    · split
      · exact (inject_lands h (takeInterrupt_keeps h hx _ _ _) hs).some
      · exact Lands.none
  · exact Lands.none

theorem runBoundary_lands {s : State} (hs : P s) : ∀ r ∈ s.runBoundary, Lands P r := by
  unfold State.runBoundary
  split
  · exact Lands.none
  split
  · exact (inject_lands h (takeTrap_keeps h hx _ _ _) hs).some
  · exact roundStep_lands h hx hs

omit hx in
theorem attend_lands {s : State} {next : Option Result} (hn : ∀ r ∈ next, Lands P r) (hs : P s) :
    ∀ r ∈ s.attend next, Lands P r := by
  unfold State.attend
  split
  · exact (Lands.refused _).some
  split
  · exact (injectPec_lands h _ _ hs).some
  · exact hn

theorem idleStep_lands {s : State} (hs : P s) : Lands P s.idleStep := by
  have ha := awake_keeps h hs
  unfold State.idleStep
  split
  · split
    · split
      · exact inject_lands h (takeTrap_keeps h hx _ _ _) ha
      · split
        · exact .next ha
        · exact .refused _
        · exact injectPec_lands h _ _ (Closed.ite _ ha hs)
        · exact inject_lands h (takeInterrupt_keeps h hx _ _ _) ha
    · exact .next ha
  · exact .next (h.rest (s := s.elapse) rfl (h.elapse hs))

omit hx in
/-- The end of the bootstrap loader, where `P` survives the values it leaves. -/
theorem loading_keeps (hboot : ∀ s bytes brl, P s → P (State.boot s bytes brl)) {s : State} (hs : P s) :
    P s.loading := by
  unfold State.loading
  split
  · exact h.rest (s := s.boot _ _) rfl (hboot s _ _ hs)
  · exact asleep_keeps h hs

/-- A step keeps what survives every elementary change, a new locked sequence, a reset and the end of the bootstrap
loader. -/
theorem step_keeps (hreset : ∀ s source, P s → Lands P (s.doReset source))
    (hboot : ∀ s bytes brl, P s → P (State.boot s bytes brl)) {s : State} (hs : P s) : Lands P (step s) := by
  have hb : ∀ r ∈ s.boundary, Lands P r := by
    unfold State.boundary
    split
    · exact (hreset s _ hs).some
    split
    · exact (Lands.next (asleep_keeps h hs)).some
    · exact (Lands.next (loading_keeps h hboot hs)).some
    · exact attend_lands h (idleStep_lands h hx hs).some hs
    · exact attend_lands h (runBoundary_lands h hx hs) hs
  unfold step
  split
  · rename_i r hr
    exact hb r hr
  · exact runNext_lands h hx hs

end

/-! ## The invariant -/

theorem inv_lockFree : LockFree State.Inv := fun _ _ hs => hs

/-- The canonical memory and the reset values of a reset. -/
theorem resetAll_inv {s : State} (hs : s.mem.wf = true) (powerOn : Bool) (syscon buscon0 wdtcon : Word) :
    (s.resetAll powerOn syscon buscon0 wdtcon).Inv :=
  ⟨resetMem_wf hs powerOn, Core.hardwired_reset syscon⟩

theorem enterLoader_inv {s : State} (hs : s.mem.wf = true) (powerOn : Bool) : (s.enterLoader powerOn).Inv := by
  have hcp : stackNorm 0xFA00 = 0xFA00 := by decide
  have hsp : stackNorm 0xFA40 = 0xFA40 := by decide
  have hov : stackNorm 0xFA0C = 0xFA0C := by decide
  exact ⟨resetMem_wf hs powerOn,
    Core.hardwired_stkov hov (Core.hardwired_stkun hsp (Core.hardwired_sp hsp (Core.hardwired_cp hcp
      (Core.hardwired_reset 0x0E00))))⟩

theorem doReset_inv {s : State} (source : ResetSource) (hs : s.Inv) : Lands State.Inv (s.doReset source) := by
  have hm := resetPass_wf (abortBus_wf hs.1 source)
  cases source with
  | hardware powerOn =>
    unfold State.doReset
    dsimp only
    split
    · split
      · exact .next (resetAll_inv hm powerOn _ _ _)
      · exact .next (enterLoader_inv hm powerOn)
    · exact .refused _
  | software => exact .next (resetAll_inv hm _ _ _ _)
  | watchdog => exact .next (resetAll_inv hm _ _ _ _)

theorem boot_inv {s : State} (bytes : Vector Byte 32) (brl : Word) (hs : s.Inv) : (s.boot bytes brl).Inv := by
  refine ⟨storeBytes_wf _ _ (storeBytes_wf _ _ hs.1), Core.hardwired_psw ?_ hs.2⟩
  have hlow : ∀ w : Word, w &&& 0x1F &&& 0x0380 = 0 := fun w => by rw [BitVec.and_assoc]; exact BitVec.and_zero
  have hkeep : s.core.psw &&& 0xFFE0 &&& 0x0380 = 0 := by
    rw [BitVec.and_assoc]; exact hs.2.psw_reserved
  show (s.core.psw &&& 0xFFE0 ||| (_ &&& 0x1F)) &&& 0x0380 = 0
  rw [BitVec.and_or_distrib_right, hkeep, hlow]
  rfl

/-- Settles O59: the invariant survives every elementary change, and a reset and the bootstrap loader establish it
anew. -/
theorem stepKeepsInv : Obligations.StepKeepsInv := by
  unfold Obligations.StepKeepsInv
  intro s t hs ht
  exact step_keeps inv_closed inv_lockFree (fun _ source => doReset_inv source) (fun _ bytes brl => boot_inv bytes brl)
    hs t ht

end Sys2Proof.Machine

namespace Sys2Proof.Machine

/-! ## The hard-wired bits of a stack pointer -/

theorem stackNorm_fixed (v : Word) : stackNorm v &&& 0xF001 = 0xF000 := by
  have h : v &&& 0x0FFE &&& 0xF001 = 0 := by rw [BitVec.and_assoc]; exact BitVec.and_zero
  unfold stackNorm
  rw [BitVec.and_or_distrib_right, h]
  rfl

theorem stackNorm_even (v : Word) : (stackNorm v).toNat % 2 = 0 := by
  rw [stackNorm_toNat]
  omega

/-! ## Push and pop -/

/-- Settles O35: what `push` and `pop` run to, and what that state holds. -/
theorem pushAndPop : Obligations.PushAndPop := by
  unfold Obligations.PushAndPop
  refine ⟨fun s k v hk => ?_, fun s k hk => ?_, fun s => ⟨stackNorm_fixed _, stackNorm_fixed _⟩⟩
  · obtain ⟨hsp, hmem, htfr, hpsw, hip, hcsp, -, -, -, hsteady, -⟩ := pushed_facts s k v
    refine ⟨s.pushed k v, push_run v hk, hsp, ?_, fun c hc => ?_, htfr, hpsw, hip, hcsp, hsteady⟩
    · rw [hmem, State.storeWord_getWord]
    · rw [hmem, State.storeWord_get_other s v hc]
  · obtain ⟨hsp, hmem, htfr, hpsw, hip, hcsp, -, -, -, hsteady, -⟩ := popped_facts s
    exact ⟨s.popped, pop_run hk, hsp, hmem, htfr, hpsw, hip, hcsp, hsteady⟩

/-! ## The place of the stack -/

/-- A stack that STKSZ 000 to 100 selects lies in the internal RAM and keeps the parity of SP. -/
theorem stackAddr_iram {n k : Nat} (hn : n < 5) (hk : stackBits n = some k) (sp : Word) :
    0xF600 ≤ (stackAddr k sp).toNat ∧ (stackAddr k sp).toNat < 0xFE00 ∧
      (stackAddr k sp).toNat % 2 = sp.toNat % 2 := by
  have hcases : k = 9 ∨ k = 8 ∨ k = 7 ∨ k = 6 ∨ k = 10 := by
    interval_cases n <;> simp only [stackBits, Option.some.injEq] at hk <;> omega
  rw [stackAddr_toNat (by omega)]
  rcases hcases with rfl | rfl | rfl | rfl | rfl <;> omega

/-- So every SP has a stack word, at an even cell if SP is even. -/
theorem stackAt_iram {s : State} (hn : fieldNat s.effMap.syscon 13 3 < 5) (sp : Word) :
    ∃ k, s.stackAt sp = some k ∧ (sp.toNat % 2 = 0 → k % 2 = 0) := by
  obtain ⟨b, hb⟩ : ∃ b, stackBits (fieldNat s.effMap.syscon 13 3) = some b := by
    generalize fieldNat s.effMap.syscon 13 3 = n at hn
    interval_cases n <;> exact ⟨_, rfl⟩
  obtain ⟨hlo, hhi, hpar⟩ := stackAddr_iram hn hb sp
  refine ⟨iramCell (stackAddr b sp).toNat, ?_, fun heven => ?_⟩
  · unfold State.stackAt
    rw [hb]
    exact if_pos ⟨hlo, hhi⟩
  · unfold iramCell
    omega

/-- Settles O46: the stack address as a number, for each size of the stack. -/
theorem stackInsideRam : Obligations.StackInsideRam := by
  unfold Obligations.StackInsideRam
  refine ⟨fun n k sp hn hk => ?_, fun s hn => ?_⟩
  · obtain ⟨hlo, hhi, hpar⟩ := stackAddr_iram hn hk sp
    obtain ⟨-, -, hnorm⟩ := stackAddr_iram hn hk (stackNorm sp)
    exact ⟨hlo, hhi, hpar, hnorm.trans (stackNorm_even sp)⟩
  · obtain ⟨kd, hkd, hdown⟩ := stackAt_iram hn s.spDown
    obtain ⟨kp, hkp, hpop⟩ := stackAt_iram hn s.effSp
    obtain ⟨ku, hku, hup⟩ := stackAt_iram hn s.spUp
    exact ⟨⟨kd, hkd, hdown (stackNorm_even _)⟩, ⟨kp, hkp, hpop⟩, ⟨ku, hku, hup (stackNorm_even _)⟩,
      fun v => ⟨_, push_run v hkd⟩, _, _, pop_run hkp⟩

/-! ## The byte registers -/

theorem gprBAt_low {s : State} {n : Gpr} (hn : n.toNat < 8) : s.gprBAt (2 * n) = s.gprAt n := by
  have h : (2 * n).toNat = 2 * n.toNat := by
    rw [BitVec.toNat_mul]
    show 2 * n.toNat % 16 = _
    omega
  unfold State.gprBAt State.gprAt
  rw [h]

theorem gprBAt_high {s : State} {n : Gpr} (hn : n.toNat < 8) : s.gprBAt (2 * n + 1) = s.gprAt n + 1 := by
  have h : (2 * n + 1).toNat = 2 * n.toNat + 1 := by
    rw [BitVec.toNat_add, BitVec.toNat_mul]
    show (2 * n.toNat % 16 + 1) % 16 = _
    omega
  unfold State.gprBAt State.gprAt
  rw [h]
  rfl

/-- A word of memory from its two bytes. -/
theorem getWord_eq_mkWord (m : Memory) (k : Nat) : m.getWord k = mkWord (m.get k) (m.get (k + 1)) := rfl

/-- Settles O45: RLn and RHn are the two cells of Rn. -/
theorem byteRegisters : Obligations.ByteRegisters := by
  unfold Obligations.ByteRegisters
  intro s n hn
  have hlo : s.gprB (2 * n) = loByte (s.gpr n) := by
    unfold State.gprB State.gpr
    rw [gprBAt_low hn, getWord_eq_mkWord, loByte_mkWord]
  have hhi : s.gprB (2 * n + 1) = hiByte (s.gpr n) := by
    unfold State.gprB State.gpr
    rw [gprBAt_high hn, getWord_eq_mkWord, hiByte_mkWord]
  refine ⟨hlo, hhi, fun v => ?_, fun v => ?_⟩
  · rw [← hhi, State.gprB, gprBAt_low hn, gprBAt_high hn, getWord_eq_mkWord, State.storeCell_mem,
      Memory.get_set_same, Memory.get_set_other _ _ (by omega)]
  · rw [← hlo, State.gprB, gprBAt_low hn, gprBAt_high hn, getWord_eq_mkWord, State.storeCell_mem,
      Memory.get_set_same, Memory.get_set_other _ _ (by omega)]

end Sys2Proof.Machine

namespace Sys2Proof.Machine

/-! ## Core registers as bit fields -/

theorem stackNorm_eq_append (v : Word) : stackNorm v = 0xF#4 ++ v.extractLsb' 1 11 ++ 0#1 := by
  apply BitVec.eq_of_getLsbD_eq
  intro i hi
  refine Eq.trans ?_ (BitVec.getLsbD_append (x := 0xF#4 ++ v.extractLsb' 1 11)).symm
  rw [BitVec.getLsbD_append, BitVec.getLsbD_extractLsb']
  unfold stackNorm
  interval_cases i <;> simp

/-- Bits 11 and 10, set on top of a stack pointer. -/
theorem stackNorm_or_eq_append (v : Word) :
    stackNorm v ||| 0x0C00 = 0xF#4 ++ 0b11#2 ++ v.extractLsb' 1 9 ++ 0#1 := by
  apply BitVec.eq_of_getLsbD_eq
  intro i hi
  refine Eq.trans ?_ (BitVec.getLsbD_append (x := 0xF#4 ++ 0b11#2 ++ v.extractLsb' 1 9)).symm
  rw [BitVec.getLsbD_append, BitVec.getLsbD_append, BitVec.getLsbD_extractLsb']
  unfold stackNorm
  interval_cases i <;> simp

/-- The mask of `cpNorm` tests bits 11 to 9. -/
theorem and_0E00_eq_zero (v : Word) : v &&& 0x0E00 = 0 ↔ v.extractLsb' 9 3 = 0 := by
  have hfield : v.extractLsb' 9 3 = (v &&& 0x0E00).extractLsb' 9 3 := by
    rw [BitVec.extractLsb'_and]
    exact BitVec.and_allOnes.symm
  have hmask : v &&& (0x0E00 : Word) = (v.extractLsb' 9 3).setWidth 16 <<< 9 := by
    apply BitVec.eq_of_getLsbD_eq
    intro i hi
    interval_cases i <;> simp
  constructor
  · intro h
    rw [hfield, h]
    rfl
  · intro h
    exact hmask.trans (by rw [h]; rfl)

theorem cpNorm_of_ne {v : Word} (hv : v.extractLsb' 9 3 ≠ 0) :
    cpNorm v = 0xF#4 ++ v.extractLsb' 1 11 ++ 0#1 := by
  unfold cpNorm
  rw [if_neg (fun h => hv ((and_0E00_eq_zero v).mp h)), stackNorm_eq_append]

theorem cpNorm_of_eq {v : Word} (hv : v.extractLsb' 9 3 = 0) :
    cpNorm v = 0xF#4 ++ 0b11#2 ++ v.extractLsb' 1 9 ++ 0#1 := by
  unfold cpNorm
  rw [if_pos ((and_0E00_eq_zero v).mpr hv), stackNorm_or_eq_append]

theorem tfr_mask : Sfr.tfr.mask = 0xE08F := by decide

/-- A request that TFR takes is one for a flag written 1. -/
theorem or_and_and_mask (t v n m : Word) :
    (t ||| (v &&& m &&& n)) &&& (v &&& m) = (t ||| (v &&& n)) &&& (v &&& m) := by
  apply BitVec.eq_of_getLsbD_eq
  intro i hi
  simp only [BitVec.getLsbD_and, BitVec.getLsbD_or]
  cases v.getLsbD i <;> cases m.getLsbD i <;> simp

theorem syscon_merge (old v : Word) : Sfr.syscon.merge old v = (old &&& 0x0078) ||| (v &&& 0xFF87) := by
  have hm : Sfr.syscon.mask = 0xFF87 := by decide
  unfold Sfr.merge
  rw [hm]
  rfl

/-! ## Software writes of core registers -/

section
variable (s : State) (v named : Word)

theorem storeSfr_csp : s.storeSfr Sfr.csp v named = s := rfl
theorem storeSfr_zeros : s.storeSfr Sfr.zeros v named = s := rfl
theorem storeSfr_ones : s.storeSfr Sfr.ones v named = s := rfl
theorem storeSfr_mdh : s.storeSfr Sfr.mdh v named = s.writeMdh v := rfl
theorem storeSfr_mdl : s.storeSfr Sfr.mdl v named = s.writeMdl v := rfl
theorem storeSfr_cp : s.storeSfr Sfr.cp v named = s.writeCp v := rfl
theorem storeSfr_sp : s.storeSfr Sfr.sp v named = s.writeSp v := rfl
theorem storeSfr_psw : s.storeSfr Sfr.psw v named = s.writePsw v := rfl
theorem storeSfr_syscon : s.storeSfr Sfr.syscon v named = s.writeSyscon v := rfl
theorem storeSfr_tfr : s.storeSfr Sfr.tfr v named = s.noteWrite (s.writeTfr v) Sfr.tfr named := rfl
theorem storeSfr_stkov : s.storeSfr Sfr.stkov v named = { s with core := { s.core with stkov := stackNorm v } } := rfl
theorem storeSfr_stkun : s.storeSfr Sfr.stkun v named = { s with core := { s.core with stkun := stackNorm v } } := rfl
theorem storeSfr_mdc : s.storeSfr Sfr.mdc v named = { s with core := { s.core with mdc := v &&& 0x00FF } } := rfl

theorem storeSfr_dpp (n : Fin 4) : s.storeSfr (Sfr.dpp n) v named = s.writeDpp n v := by
  fin_cases n <;> rfl

theorem writeCp_core : (s.writeCp v).core = { s.core with cp := cpNorm v } := rfl
theorem writeSp_core : (s.writeSp v).core = { s.core with sp := stackNorm v } := rfl

theorem writeSyscon_open (h : s.sys.einitDone = false) :
    s.writeSyscon v = s.remap { s with core := { s.core with syscon := Sfr.syscon.merge s.core.syscon v } } := by
  unfold State.writeSyscon
  rw [h]
  rfl

theorem writeSyscon_closed (h : s.sys.einitDone = true) : s.writeSyscon v = s := by
  unfold State.writeSyscon
  rw [h]
  rfl

/-- A write of a register of the core changes no memory. -/
theorem writeCore_mem (r : Sfr) : ∀ t ∈ s.writeCore r v, t.mem = s.mem := by
  have hsyscon : (s.writeSyscon v).mem = s.mem := by
    unfold State.writeSyscon
    split <;> rfl
  exact forall_mem_dite_some (fun _ => rfl) <| forall_mem_ite_some rfl <| forall_mem_ite_some rfl <|
    forall_mem_ite_some rfl <| forall_mem_ite_some rfl <| forall_mem_ite_some rfl <| forall_mem_ite_some rfl <|
    forall_mem_ite_some rfl <| forall_mem_ite_some rfl <| forall_mem_ite_some rfl <| forall_mem_ite_some hsyscon <|
    forall_mem_ite_some rfl <| forall_mem_ite_some rfl <| forall_mem_ite_some rfl (by rintro t ⟨⟩)

theorem storeSfr_mem (r : Sfr) : (s.storeSfr r v named).mem = s.mem := by
  unfold State.storeSfr
  split
  · rename_i t ht
    have hmem := writeCore_mem s v r t ht
    split
    · exact hmem
    · exact hmem
  · exact congrArg (fun h : Core × Ext × Memory => h.2.2) (storePeripheral_held s r v named)

end

/-- Settles O40: `cpNorm` by its bits. -/
theorem contextPointerWrite : Obligations.ContextPointerWrite := by
  unfold Obligations.ContextPointerWrite
  intro s v named
  rw [storeSfr_cp, writeCp_core]
  exact ⟨cpNorm_of_ne, cpNorm_of_eq⟩

/-! ## Reads of registers -/

theorem sfrValue_dpp (s : State) (n : Fin 4) : s.sfrValue (Sfr.dpp n) = s.core.dpp[n.val] := by
  fin_cases n <;> rfl

theorem sfrValue_csp (s : State) : s.sfrValue Sfr.csp = 0#8 ++ s.core.csp := by
  show s.core.csp.setWidth 16 = _
  exact BitVec.setWidth_eq_append (by decide)

/-- Outside the core and the ports five registers have a read rule of their own. -/
theorem sfrValue_plain {s : State} {r : Sfr} (hcore : s.coreValue r = none) (hport : s.portOf r = none)
    (hp5 : r ≠ Sfr.p5) (hbg : r ≠ Sfr.s0bg) (hbr : r ≠ Sfr.sscbr) (hcon : r ≠ Sfr.ssccon) (htb : r ≠ Sfr.ssctb) :
    s.sfrValue r = s.reg r := by
  unfold State.sfrValue
  rw [hcore, hport]
  exact (if_neg hp5).trans <| (if_neg hbg).trans <| (if_neg hbr).trans <| (if_neg hcon).trans (if_neg htb)

theorem afterSfrRead_mdl (s : State) :
    s.afterSfrRead Sfr.mdl = { s with core := { s.core with mdc := s.core.mdc &&& 0xFFEF } } := rfl

theorem afterSfrRead_plain {s : State} {r : Sfr} (hmdl : r ≠ Sfr.mdl) (hrbuf : r ≠ Sfr.s0rbuf) (hrb : r ≠ Sfr.sscrb)
    (haddat : r ≠ Sfr.addat) (haddat2 : r ≠ Sfr.addat2) : s.afterSfrRead r = s :=
  (if_neg hmdl).trans <| (if_neg hrbuf).trans <| (if_neg hrb).trans <| (if_neg haddat).trans (if_neg haddat2)

/-- Settles O41: the write and the read rule of each register. -/
theorem coreRegisterAccess : Obligations.CoreRegisterAccess := by
  unfold Obligations.CoreRegisterAccess
  intro s v named
  have hcp : cpNorm v = if v.extractLsb' 9 3 = 0 then 0xF#4 ++ 0b11#2 ++ v.extractLsb' 1 9 ++ 0#1
      else 0xF#4 ++ v.extractLsb' 1 11 ++ 0#1 := by
    split
    · exact cpNorm_of_eq ‹_›
    · exact cpNorm_of_ne ‹_›
  refine ⟨storeSfr_csp s v named, ?sp, ?stkov, ?stkun, ?psw, ?cp, ?tfr, ?treq, ?wrote, ?syscon, ?dpp, ?mdh, ?mdl, ?mdc,
    ?locked, fun r _ => storeSfr_mem s v named r,
    ⟨rfl, rfl, rfl, rfl, rfl, rfl, rfl, rfl, rfl, rfl, sfrValue_csp s, sfrValue_dpp s⟩,
    fun r => sfrValue_plain, afterSfrRead_mdl s, fun r => afterSfrRead_plain⟩
  case sp => rw [storeSfr_sp, writeSp_core, stackNorm_eq_append]
  case stkov => rw [storeSfr_stkov, stackNorm_eq_append]
  case stkun => rw [storeSfr_stkun, stackNorm_eq_append]
  case cp => rw [storeSfr_cp, writeCp_core, hcp]
  case psw =>
    rw [storeSfr_psw]
    rfl
  case tfr =>
    rw [storeSfr_tfr]
    rfl
  case treq =>
    rw [storeSfr_tfr, ← or_and_and_mask]
    rfl
  case wrote =>
    rw [storeSfr_tfr, ← tfr_mask]
    rfl
  case mdh =>
    rw [storeSfr_mdh]
    rfl
  case mdl =>
    rw [storeSfr_mdl]
    rfl
  case mdc => rw [storeSfr_mdc]
  case syscon =>
    intro h
    rw [storeSfr_syscon, writeSyscon_open s v h, ← syscon_merge]
    rfl
  case dpp =>
    intro n
    rw [storeSfr_dpp]
    rfl
  case locked =>
    intro h
    rw [storeSfr_syscon, writeSyscon_closed s v h]

/-! ## The constant registers -/

/-- Settles O39: the constants are values of the core, with no write rule and no port in their place. -/
theorem constantRegisters : Obligations.ConstantRegisters := by
  unfold Obligations.ConstantRegisters
  refine ⟨by decide, by decide, by decide, by decide, fun s => ⟨rfl, rfl, fun hesfr => ?_, fun v named => ?_⟩⟩
  · have hz : s.regNum 0x8E = Sfr.zeros := by
      unfold State.regNum
      rw [hesfr]
      rfl
    have ho : s.regNum 0x8F = Sfr.ones := by
      unfold State.regNum
      rw [hesfr]
      rfl
    constructor
    · unfold State.bitWord
      rw [hz, if_neg (by decide), if_pos (by decide)]
      rfl
    · unfold State.bitWord
      rw [ho, if_neg (by decide), if_pos (by decide)]
      rfl
  · have hpz : Sfr.zeros.present = true := by decide
    have hpo : Sfr.ones.present = true := by decide
    refine ⟨storeSfr_zeros s v named, storeSfr_ones s v named, ?_, ?_⟩
    · unfold State.sfrStored
      rw [hpz, storeSfr_zeros]
      rfl
    · unfold State.sfrStored
      rw [hpo, storeSfr_ones]
      rfl

end Sys2Proof.Machine

namespace Sys2Proof.Machine

/-! ## The register file after a write to a plain register -/

theorem ite_some_eq_none {α β : Type} {c : Prop} [Decidable c] {x : α} {y : β} {a : Option α} {b : Option β}
    (h : a = none → b = none) : (if c then some x else a) = none → (if c then some y else b) = none := by
  split
  · rintro ⟨⟩
  · exact h

theorem dite_some_eq_none {α β : Type} {c : Prop} [Decidable c] {x : c → α} {y : c → β} {a : Option α} {b : Option β}
    (h : a = none → b = none) :
    (if hc : c then some (x hc) else a) = none → (if hc : c then some (y hc) else b) = none := by
  split
  · rintro ⟨⟩
  · exact h

/-- The registers with a value in the core are those with a write rule there. -/
theorem writeCore_eq_none {s : State} {r : Sfr} (v : Word) : s.coreValue r = none → s.writeCore r v = none :=
  dite_some_eq_none <| ite_some_eq_none <| ite_some_eq_none <| ite_some_eq_none <| ite_some_eq_none <|
  ite_some_eq_none <| ite_some_eq_none <| ite_some_eq_none <| ite_some_eq_none <| ite_some_eq_none <|
  ite_some_eq_none <| ite_some_eq_none <| ite_some_eq_none <| ite_some_eq_none fun _ => rfl

theorem storeSfr_peripheral {s : State} {r : Sfr} (v named : Word) (h : s.coreValue r = none) :
    s.storeSfr r v named = s.noteWrite (s.storePeripheral r v named) r named := by
  unfold State.storeSfr
  rw [writeCore_eq_none v h]

theorem sfr_ite {c : Prop} [Decidable c] {s t : State} {f : SfrFile} (hs : c → s.sfr = f) (ht : t.sfr = f) :
    (if c then s else t).sfr = f := by
  split
  · exact hs ‹_›
  · exact ht

theorem sfr_dite {c : Prop} [Decidable c] {s : c → State} {t : ¬c → State} {f : SfrFile} (hs : ∀ h, (s h).sfr = f)
    (ht : ∀ h, (t h).sfr = f) : (if h : c then s h else t h).sfr = f := by
  split
  · exact hs _
  · exact ht _

theorem writeAddat2_sfr (s : State) (v : Word) : (s.writeAddat2 v).sfr = s.sfr.set Sfr.addat2 v :=
  sfr_ite (fun _ => rfl) rfl

theorem markGpt_sfr (s : State) (r : Sfr) : (s.markGpt r).sfr = s.sfr := sfr_ite (fun _ => rfl) rfl

/-- The registers that `plainSfr` leaves out. -/
theorem plainSfr_spec {r : Sfr} (h : plainSfr r = true) :
    r.isDirection = false ∧
    (r ≠ Sfr.ssccon ∧ r ≠ Sfr.s0tbuf ∧ r ≠ Sfr.s0bg ∧ r ≠ Sfr.ssctb ∧ r ≠ Sfr.adcon ∧ r ≠ Sfr.t0 ∧ r ≠ Sfr.t1 ∧
      r ≠ Sfr.t7 ∧ r ≠ Sfr.t8) ∧
    ¬(28 ≤ r.val ∧ r.val < 32) ∧ ¬(280 ≤ r.val ∧ r.val < 284) ∧ ¬(352 ≤ r.val ∧ r.val < 360) := by
  simpa only [plainSfr, Bool.and_eq_true, Bool.not_eq_true', List.contains_eq_mem, List.mem_cons, List.not_mem_nil,
    decide_eq_false_iff_not, not_or, or_false, and_assoc] using h

/-- A plain register takes the written word and no other register changes. -/
theorem writePeripheral_sfr {s : State} {r : Sfr} (v named : Word) (h : plainSfr r = true) :
    (s.writePeripheral r v named).sfr = s.sfr.set r v := by
  obtain ⟨-, ⟨-, htbuf, hbg, htb, hadcon, ht0, ht1, ht7, ht8⟩, hpp, hpw, hpecc⟩ := plainSfr_spec h
  have hpecc' : ¬(352 ≤ r.val && r.val < 360) = true := by simpa using hpecc
  exact sfr_ite (absurd · htbuf) <| sfr_ite (absurd · hbg) <| sfr_ite (absurd · htb) <| sfr_ite (absurd · hadcon) <|
    sfr_ite (fun heq => heq ▸ writeAddat2_sfr s v) <| sfr_ite (absurd · ht0) <| sfr_ite (absurd · ht1) <|
    sfr_ite (absurd · ht7) <| sfr_ite (absurd · ht8) <| sfr_ite (fun _ => rfl) <| sfr_ite (fun _ => rfl) <|
    sfr_ite (fun _ => rfl) <| sfr_ite (fun _ => markGpt_sfr _ r) <|
    sfr_dite (fun hpt => congrArg (s.sfr.set · v) (Fin.ext (by show 24 + (r.val - 24) = r.val; omega))) fun _ =>
    sfr_dite (absurd · hpp) fun _ => sfr_dite (absurd · hpw) fun _ => sfr_ite (absurd · hpecc') <|
    sfr_ite (fun _ => rfl) rfl

theorem storePeripheral_sfr {s : State} {r : Sfr} (v named : Word) (h : plainSfr r = true) :
    (s.storePeripheral r v named).sfr = s.sfr.set r (r.merge (s.reg r) v) := by
  obtain ⟨hdir, ⟨hcon, -⟩, -⟩ := plainSfr_spec h
  unfold State.storePeripheral
  rw [if_neg hcon, hdir]
  exact writePeripheral_sfr _ named h

/-- Settles O42: the register file by `storePeripheral_sfr`, the core and memory by `storePeripheral_held`. -/
theorem plainRegisterWrites : Obligations.PlainRegisterWrites := by
  unfold Obligations.PlainRegisterWrites
  refine ⟨fun s r q v named hcore hplain => ?_, fun s r v named hcore => ?_⟩
  · rw [storeSfr_peripheral v named hcore]
    show (s.storePeripheral r v named).sfr.get q = _
    rw [storePeripheral_sfr v named hplain, SfrFile.get_set]
    rfl
  · rw [storeSfr_peripheral v named hcore]
    have hheld := storePeripheral_held s r v named
    simp only [State.held, Prod.mk.injEq] at hheld
    obtain ⟨hc, -, hm⟩ := hheld
    exact ⟨hc, hm⟩

end Sys2Proof.Machine

namespace Sys2Proof.Machine

/-! ## The register file after a reset -/

theorem SfrFile.get_zero (r : Sfr) : SfrFile.zero.get r = 0 := by
  unfold SfrFile.get SfrFile.zero
  rw [Vector.getElem_replicate, Vector.getElem_replicate]

/-- A register that starts at 0: none of the three that take their value from the pins or the kind of reset. -/
theorem SfrFile.reset_get_other (rp0h buscon0 wdtcon : Word) {r : Sfr} (hwdtcon : r ≠ Sfr.wdtcon)
    (hbuscon : r ≠ Sfr.buscon 0) (hrp0h : r ≠ Sfr.rp0h) : (SfrFile.reset rp0h buscon0 wdtcon).get r = 0 := by
  unfold SfrFile.reset
  rw [SfrFile.get_set, if_neg hwdtcon, SfrFile.get_set, if_neg hbuscon, SfrFile.get_set, if_neg hrp0h, SfrFile.get_zero]

/-- No interrupt control register is a register with another reset value. -/
theorem nodes_start_zero : ∀ n ∈ nodes, n.1 ≠ Sfr.wdtcon ∧ n.1 ≠ Sfr.buscon 0 ∧ n.1 ≠ Sfr.rp0h ∧
    n.1 ≠ Sfr.s0rbuf ∧ n.1 ≠ Sfr.sscrb := by decide

/-- Settles O60: the fields of `State.reset` and its register file. -/
theorem resetInv : Obligations.ResetInv := by
  unfold Obligations.ResetInv
  refine ⟨⟨rfl, Core.hardwired_reset 0⟩, rfl, rfl, rfl, fun n hn => ?_, ?_, ?_⟩
  · obtain ⟨hwdtcon, hbuscon, hrp0h, -, -⟩ := nodes_start_zero n hn
    exact SfrFile.reset_get_other _ _ _ hwdtcon hbuscon hrp0h
  · show (SfrFile.reset 0xFF 0x06C0 0).get (Sfr.buscon 0) = _
    unfold SfrFile.reset
    rw [SfrFile.get_set, if_neg (by decide), SfrFile.get_set_same]
  · show (SfrFile.reset 0xFF 0x06C0 0).get Sfr.rp0h = _
    unfold SfrFile.reset
    rw [SfrFile.get_set, if_neg (by decide), SfrFile.get_set, if_neg (by decide), SfrFile.get_set_same]

section
variable (s : State) (powerOn : Bool) (syscon buscon0 wdtcon : Word)

theorem resetAll_reg_other {r : Sfr} (hrbuf : r ≠ Sfr.s0rbuf) (hrb : r ≠ Sfr.sscrb) :
    (s.resetAll powerOn syscon buscon0 wdtcon).reg r = (SfrFile.reset (s.env.port0 >>> 8) buscon0 wdtcon).get r := by
  show (SfrFile.set (SfrFile.set _ _ _) _ _).get r = _
  rw [SfrFile.get_set, if_neg hrb, SfrFile.get_set, if_neg hrbuf]

theorem resetAll_reg_node (n : Sfr × Nat) (hn : n ∈ nodes) :
    (s.resetAll powerOn syscon buscon0 wdtcon).reg n.1 = 0 := by
  obtain ⟨hwdtcon, hbuscon, hrp0h, hrbuf, hrb⟩ := nodes_start_zero n hn
  rw [resetAll_reg_other s _ _ _ _ hrbuf hrb, SfrFile.reset_get_other _ _ _ hwdtcon hbuscon hrp0h]

theorem resetAll_reg_wdtcon : (s.resetAll powerOn syscon buscon0 wdtcon).reg Sfr.wdtcon = wdtcon := by
  rw [resetAll_reg_other _ _ _ _ _ (by decide) (by decide)]
  exact SfrFile.get_set_same _ _ _

theorem resetAll_reg_wdt : (s.resetAll powerOn syscon buscon0 wdtcon).reg Sfr.wdt = 0 := by
  rw [resetAll_reg_other _ _ _ _ _ (by decide) (by decide)]
  exact SfrFile.reset_get_other _ _ _ (by decide) (by decide) (by decide)

end

/-! ## Memory on the chip during a reset sequence -/

/-- The cells of external memory lie below or above those of the chip. -/
theorem csCell_ne_chip (s : State) (cs : Nat) (a : Addr) {k : Nat} (hlo : 0x1000000 ≤ k) (hhi : k < 0x10000000) :
    k ≠ s.csCell cs a := by
  have ha : a.toNat % 2 ^ (16 + segLines (s.sfr.get Sfr.rp0h)) < 0x1000000 :=
    (Nat.mod_le _ _).trans_lt a.isLt
  unfold State.csCell
  split <;> omega

/-- While the clocks stand still, what happens outside stores in external memory only. -/
theorem eventAsleep_mem_chip (s : State) (e : EnvEvent) {k : Nat} (hlo : 0x1000000 ≤ k) (hhi : k < 0x10000000) :
    (s.eventAsleep e).mem.get k = s.mem.get k := by
  cases e with
  | extWrite cs a v => exact Memory.get_set_other s.mem v (csCell_ne_chip s cs a hlo hhi)
  | _ => rfl

theorem sleepEvents_mem_chip (l : List (Nat × EnvEvent)) (n : Nat) (s : State) {k : Nat} (hlo : 0x1000000 ≤ k)
    (hhi : k < 0x10000000) : (sleepEvents n l s).mem.get k = s.mem.get k := by
  induction l generalizing n s with
  | nil => rfl
  | cons c l ih =>
    unfold sleepEvents
    split
    · rw [ih, eventAsleep_mem_chip s c.2 hlo hhi]
    · rfl

theorem resetPass_mem_chip (s : State) {k : Nat} (hlo : 0x1000000 ≤ k) (hhi : k < 0x10000000) :
    s.resetPass.mem.get k = s.mem.get k :=
  sleepEvents_mem_chip _ _ _ hlo hhi

/-- With no write on the bus or waiting for it there is none to abort. -/
theorem abortBus_mem_of_idle {s : State} (source : ResetSource) (hundo : s.bus.undo = none)
    (hwait : s.sys.waiting = false) (hpec : s.sys.pecWait = none) : (s.abortBus source).mem = s.mem := by
  unfold State.abortBus
  rw [hundo, hwait, hpec]
  rfl

/-- Settles O54: the step is `resetAll` on the state that `resetPass` leaves. -/
theorem softwareReset_leaves : Obligations.SoftwareReset := by
  unfold Obligations.SoftwareReset
  intro s hreq u
  have hstep : step s =
      .next (u.resetAll false (resetSyscon u.env.ea u.env.port0) (resetBuscon0 u.env.ea u.env.port0) 0) := by
    unfold step State.boundary
    rw [hreq]
    rfl
  refine ⟨_, hstep, rfl, fun n hn => resetAll_reg_node u _ _ _ _ n hn, rfl, rfl, rfl, rfl, rfl, rfl,
    resetAll_reg_wdtcon u _ _ _ _, resetAll_reg_wdt u _ _ _ _, rfl, rfl, rfl, fun hundo hwait hpec k hlo hhi => ?_⟩
  show u.mem.get k = _
  rw [resetPass_mem_chip _ hlo hhi, abortBus_mem_of_idle _ hundo hwait hpec]

end Sys2Proof.Machine

namespace Sys2Proof.Machine

/-! ## Where a write to a register stops -/

theorem checkSfr_reserved {r : Sfr} (h : r.val < 16) (s : State) :
    checkSfr r s = .error (.fault (.reservedArea r.addr)) := by
  unfold checkSfr
  rw [if_pos h]
  rfl

theorem checkSfr_noRegister {r : Sfr} (hlow : 16 ≤ r.val) (hrow : r.row? = none) (s : State) :
    checkSfr r s = .error (.fault (.noRegister r.addr)) := by
  unfold checkSfr
  rw [if_neg (by omega), hrow]
  rfl

/-- A write to a register stops where the check of the register does. -/
theorem writeSfr_of_check {s : State} {r : Sfr} {e : Stop} (v : Word) (h : checkSfr r s = .error e) :
    writeSfr r v s = .error e := by
  unfold writeSfr writeSfrBits
  exact Act.bind_error h _

theorem writeSfr_refused {s : State} {r : Sfr} {e : Refusal} (v : Word) (h : r.present = true)
    (hr : s.sfrRefusal r = some e) : writeSfr r v s = .error (.refused e) := by
  unfold writeSfr writeSfrBits
  rw [Act.bind_ok (checkSfr_run h), Act.look_bind, hr]
  rfl

theorem writeReg_eq_writeSfr {q : Byte} (hq : isGprCode q = false) (v : Word) (s : State) :
    writeReg q v s = writeSfr (s.regNum q) v s := by
  unfold writeReg sfrOfCode
  rw [hq]
  exact Act.look_bind _ _ s

theorem sfrRefusal_p0l {s : State} (h : s.busUsesP0 false = true) :
    s.sfrRefusal Sfr.p0l = some .busPortWrite := by
  unfold State.sfrRefusal
  rw [h]
  rfl

/-- A move stops as its write stops. -/
theorem movPlain_stops {w : Nat} {src : Act (BitVec w)} {wr : BitVec w → Act Unit} {s u : State} {v : BitVec w}
    {e : Stop} (h : src s = .ok (v, u)) (hw : wr v (u.withFlags (moveFlags u.core.psw v)) = .error e) (len : Nat) :
    movPlain src wr len s = .error e := by
  unfold movPlain
  exact Act.bind_error ((moveStep_run h).trans hw) _

theorem Act.toOutcome_fault {a : Act Unit} {s : State} {f : Fault} (h : a s = .error (.fault f)) :
    a.toOutcome s = .fault f := by
  unfold Act.toOutcome
  rw [h]

theorem Act.toOutcome_refused {a : Act Unit} {s : State} {r : Refusal} (h : a s = .error (.refused r)) :
    a.toOutcome s = .refused r := by
  unfold Act.toOutcome
  rw [h]

theorem exec_movRegImm (q : Byte) (d : Word) (s : State) :
    exec (.movRegImm q d) s = (movPlain (pure d) (wordW.writeReg q) 4).toOutcome s := rfl

/-- MOV reg,#data16 stops where the write of its register does. The flags are set before that write. -/
theorem movRegImm_stops {s : State} {q : Byte} {d : Word} {e : Stop} (hq : isGprCode q = false)
    (h : ∀ f, writeSfr (s.regNum q) d (s.withFlags f) = .error e) :
    movPlain (pure d) (wordW.writeReg q) 4 s = .error e := by
  refine movPlain_stops (Act.pure_run d s) ?_ 4
  exact (writeReg_eq_writeSfr hq d _).trans (h _)

theorem regNum_0x80 {s : State} (h : s.sys.ext.esfr = false) : s.regNum 0x80 = Sfr.p0l := by
  unfold State.regNum
  rw [h]
  rfl

theorem withFlags_busUsesP0 (s : State) (f : Flags) (high : Bool) :
    (s.withFlags f).busUsesP0 high = s.busUsesP0 high := rfl

/-- Settles O44: the check of the register stops the first two moves, the bus on PORT0 the third. -/
theorem registerStops : Obligations.RegisterStops := by
  unfold Obligations.RegisterStops
  refine ⟨fun s q d hq hlow hrow => ?_, fun s q d hq hlow => ?_, fun s d hesfr hbus => ?_⟩
  · rw [exec_movRegImm]
    exact Act.toOutcome_fault (movRegImm_stops hq fun f => writeSfr_of_check d (checkSfr_noRegister hlow hrow _))
  · rw [exec_movRegImm]
    exact Act.toOutcome_fault (movRegImm_stops hq fun f => writeSfr_of_check d (checkSfr_reserved hlow _))
  · have hpresent : Sfr.p0l.present = true := by decide
    rw [exec_movRegImm]
    refine Act.toOutcome_refused (movRegImm_stops (by decide) fun f => ?_)
    rw [regNum_0x80 hesfr]
    exact writeSfr_refused d hpresent (sfrRefusal_p0l ((withFlags_busUsesP0 s f false).trans hbus))

end Sys2Proof.Machine

namespace Sys2Proof.Machine

/-! ## Word accesses at an odd data address (R104, R550) -/

theorem wordAt_odd {s : State} {a : Word} (h : (s.dataAddr a).toNat % 2 = 1) :
    s.wordAt a = some (Config.freeWord .oddRead s.free (s.dataAddr a).toNat, s.raise tfrIllopa) := by
  unfold State.wordAt State.wordIn
  rw [if_pos h]

theorem wordStored_odd {s : State} {a : Word} (v : Word) (h : (s.dataAddr a).toNat % 2 = 1) :
    s.wordStored a v = some (s.raise tfrIllopa) := by
  unfold State.wordStored State.wordInto
  rw [if_pos h]

/-- A condition flag that was clear requests its trap when it is raised. -/
theorem raise_requests {s : State} {m : Word} {i : Nat} (hm : wbit m i = true) (hclear : wbit s.core.tfr i = false) :
    wbit (s.raise m).sys.treq i = true := by
  have hi : i < 16 := BitVec.lt_of_getLsbD hm
  unfold wbit at *
  rw [State.raise_sys, BitVec.getLsbD_or, BitVec.getLsbD_and, BitVec.getLsbD_not, hm, hclear]
  simp [hi]

/-- Settles O43: the read and the write leave the same state, in which ILLOPA has been raised. -/
theorem misalignedWord : Obligations.MisalignedWord := by
  unfold Obligations.MisalignedWord
  intro s a v hodd
  have hbit : wbit tfrIllopa 2 = true := by decide
  exact ⟨s.raise tfrIllopa, wordAt_odd hodd, wordStored_odd v hodd, State.raise_core s _, State.raise_mem s _,
    raise_requests hbit⟩

end Sys2Proof.Machine

namespace Sys2Proof

/-! ## The fields of an encoded byte -/

theorem hiNib_append (x y : BitVec 4) : hiNib (x ++ y) = x := BitVec.extractLsb'_append_eq_left

theorem loNib_append (x y : BitVec 4) : loNib (x ++ y) = y := BitVec.extractLsb'_append_eq_right

theorem wordOf_bytes (w : Word) : wordOf (w.extractLsb' 0 8) (w.extractLsb' 8 8) = w := by
  refine (BitVec.extractLsb'_append_extractLsb'_eq_extractLsb' (by rfl)).trans ?_
  exact BitVec.extractLsb'_eq_self

theorem ccOf_ccNum (cc : Cc) : ccOf (ccNum cc) = cc := by cases cc <;> rfl

/-! ## The low nibble of the opcodes x8h and x9h (R176) -/

section
variable (rn : Gpr) (r3 : Gpr → BitVec 3 → Instr) (ri rip : Gpr → BitVec 2 → Instr)

/-- Bit 3 clear: `#data3`. -/
theorem shortForm_data3 (d : BitVec 3) : shortForm (rn ++ (0b0#1 ++ d)) r3 ri rip = .ok (r3 rn d) := by
  have hbit : (rn ++ (0b0#1 ++ d)).extractLsb' 3 1 = 0 := by
    rw [BitVec.extractLsb'_append_eq_of_add_le (by decide), BitVec.extractLsb'_append_eq_left]
    rfl
  have hdata : (rn ++ (0b0#1 ++ d)).extractLsb' 0 3 = d := by
    rw [BitVec.extractLsb'_append_eq_of_add_le (by decide), BitVec.extractLsb'_append_eq_right]
  unfold shortForm
  rw [if_pos hbit, hiNib_append, hdata]

/-- Bit 3 set: bit 2 tells whether the pointer is incremented. -/
theorem shortForm_pointer (p kind : BitVec 2) (hkind : kind.extractLsb' 1 1 ≠ 0) :
    shortForm (rn ++ (kind ++ p)) r3 ri rip = if kind.extractLsb' 0 1 = 0 then .ok (ri rn p) else .ok (rip rn p) := by
  have hbit : (rn ++ (kind ++ p)).extractLsb' 3 1 = kind.extractLsb' 1 1 := by
    rw [BitVec.extractLsb'_append_eq_of_add_le (by decide), BitVec.extractLsb'_append_eq_of_le (by decide)]
  have hinc : (rn ++ (kind ++ p)).extractLsb' 2 1 = kind.extractLsb' 0 1 := by
    rw [BitVec.extractLsb'_append_eq_of_add_le (by decide), BitVec.extractLsb'_append_eq_of_le (by decide)]
  have hpointer : (rn ++ (kind ++ p)).extractLsb' 0 2 = p := by
    rw [BitVec.extractLsb'_append_eq_of_add_le (by decide), BitVec.extractLsb'_append_eq_right]
  unfold shortForm
  rw [hbit, if_neg hkind, hinc, hiNib_append, hpointer]

theorem shortForm_indirect (p : BitVec 2) : shortForm (rn ++ (0b10#2 ++ p)) r3 ri rip = .ok (ri rn p) :=
  shortForm_pointer rn r3 ri rip p 0b10#2 (by decide)

theorem shortForm_postInc (p : BitVec 2) : shortForm (rn ++ (0b11#2 ++ p)) r3 ri rip = .ok (rip rn p) :=
  shortForm_pointer rn r3 ri rip p 0b11#2 (by decide)

end

/-! ## Byte 1 of an EXTend instruction: a kind, a count, a GPR or 0 (R461 to R466) -/

theorem irangField_toNat {n : Nat} (h : irangOk n = true) : (irangField n).toNat + 1 = n := by
  simp only [irangOk, Bool.and_eq_true, decide_eq_true_eq] at h
  unfold irangField
  rw [BitVec.toNat_ofNat]
  omega

section
variable (kind : BitVec 2) {n : Nat} (low : BitVec 4)

theorem extKind_append : (kind ++ (irangField n ++ low)).extractLsb' 6 2 = kind := BitVec.extractLsb'_append_eq_left

theorem extLow_append : loNib (kind ++ (irangField n ++ low)) = low := by
  unfold loNib
  rw [BitVec.extractLsb'_append_eq_of_add_le (by decide), BitVec.extractLsb'_append_eq_right]

theorem irangOf_append (h : irangOk n = true) : irangOf (kind ++ (irangField n ++ low)) = n := by
  unfold irangOf
  rw [BitVec.extractLsb'_append_eq_of_add_le (by decide), BitVec.extractLsb'_append_eq_left]
  exact irangField_toNat h

/-- The four kinds of an EXTend instruction with a GPR, by their numbers. -/
theorem extDC_append (rm : Gpr) (h : irangOk n = true) :
    extDC (0b00#2 ++ (irangField n ++ rm)) = .ok (.extsR rm n) ∧
    extDC (0b01#2 ++ (irangField n ++ rm)) = .ok (.extpR rm n) ∧
    extDC (0b10#2 ++ (irangField n ++ rm)) = .ok (.extsrR rm n) ∧
    extDC (0b11#2 ++ (irangField n ++ rm)) = .ok (.extprR rm n) := by
  unfold extDC
  simp only [extKind_append, extLow_append, irangOf_append _ _ h]
  exact ⟨rfl, rfl, rfl, rfl⟩

theorem extD1_append (h : irangOk n = true) :
    extD1 (0b00#2 ++ (irangField n ++ 0x0#4)) = .ok (.atomic n) ∧
    extD1 (0b10#2 ++ (irangField n ++ 0x0#4)) = .ok (.extr n) := by
  unfold extD1
  simp only [extKind_append, extLow_append, irangOf_append _ _ h]
  exact ⟨rfl, rfl⟩

end

/-! ## Segment and page numbers in bytes 2 and 3 (R463 to R466) -/

theorem extD7_seg (b2 : Byte) {n : Nat} (h : irangOk n = true) :
    extD7 (0b00#2 ++ (irangField n ++ 0x0#4)) b2 0 = .ok (.extsImm b2 n) ∧
    extD7 (0b10#2 ++ (irangField n ++ 0x0#4)) b2 0 = .ok (.extsrImm b2 n) := by
  unfold extD7
  simp only [extKind_append, extLow_append, irangOf_append _ _ h]
  exact ⟨rfl, rfl⟩

theorem extD7_page (pag : BitVec 10) {n : Nat} (h : irangOk n = true) :
    extD7 (0b01#2 ++ (irangField n ++ 0x0#4)) (pag.extractLsb' 0 8) (0b000000#6 ++ pag.extractLsb' 8 2) =
      .ok (.extpImm pag n) ∧
    extD7 (0b11#2 ++ (irangField n ++ 0x0#4)) (pag.extractLsb' 0 8) (0b000000#6 ++ pag.extractLsb' 8 2) =
      .ok (.extprImm pag n) := by
  have hpage : pag.extractLsb' 8 2 ++ pag.extractLsb' 0 8 = pag :=
    (BitVec.extractLsb'_append_extractLsb'_eq_extractLsb' (by rfl)).trans BitVec.extractLsb'_eq_self
  have hfixed : (0b000000#6 ++ pag.extractLsb' 8 2).extractLsb' 2 6 = 0 := BitVec.extractLsb'_append_eq_left
  have hhigh : (0b000000#6 ++ pag.extractLsb' 8 2).extractLsb' 0 2 = pag.extractLsb' 8 2 :=
    BitVec.extractLsb'_append_eq_right
  unfold extD7
  simp only [extKind_append, extLow_append, irangOf_append _ _ h, hfixed, hhigh, hpage]
  exact ⟨rfl, rfl⟩

end Sys2Proof

namespace Sys2Proof

/-! ## Encodings that decode -/

/-- Decoding `bytes` gives `i` and leaves whatever follows them. -/
def DecodesTo (bytes : List Byte) (i : Instr) : Prop := ∀ rest, decode (bytes ++ rest) = .instr i rest

theorem Form.when_true {c : Bool} {i : Instr} (h : c = true) : Form.when c i = .ok i := by
  unfold Form.when
  rw [if_pos h]

section
variable {b0 b1 b2 b3 : Byte} {i : Instr}

theorem decodesTo_enc2 (hl : isLong b0 = false) (h : decodeForm b0 b1 0 0 = .ok i) : DecodesTo (enc2 b0 b1) i := by
  intro rest
  show (if isLong b0 then _ else _) = _
  rw [hl, h]
  rfl

theorem decodesTo_four (hl : isLong b0 = true) (h : decodeForm b0 b1 b2 b3 = .ok i) :
    DecodesTo [b0, b1, b2, b3] i := by
  intro rest
  show (if isLong b0 then _ else _) = _
  rw [hl, h]
  rfl

end

/-! ## The layouts of two bytes -/

section
variable {b0 : Byte} (hl : isLong b0 = false)
include hl

theorem decodesTo_byte {i : Byte → Instr} (h : ∀ b1, decodeForm b0 b1 0 0 = .ok (i b1)) (b1 : Byte) :
    DecodesTo (enc2 b0 b1) (i b1) := decodesTo_enc2 hl (h b1)

theorem decodesTo_nibbles {i : BitVec 4 → BitVec 4 → Instr}
    (h : ∀ b1, decodeForm b0 b1 0 0 = .ok (i (hiNib b1) (loNib b1))) (x y : BitVec 4) :
    DecodesTo (enc2 b0 (x ++ y)) (i x y) := by
  refine decodesTo_enc2 hl ?_
  rw [h, hiNib_append, loNib_append]

/-- The same where the instruction names the low nibble first. -/
theorem decodesTo_nibbles_swap {i : BitVec 4 → BitVec 4 → Instr}
    (h : ∀ b1, decodeForm b0 b1 0 0 = .ok (i (loNib b1) (hiNib b1))) (y x : BitVec 4) :
    DecodesTo (enc2 b0 (x ++ y)) (i y x) := decodesTo_nibbles hl (i := fun x y => i y x) h x y

/-- A GPR in the high nibble, 0 in the low one: CPL, NEG. -/
theorem decodesTo_nibble_zero {i : Gpr → Instr}
    (h : ∀ b1, decodeForm b0 b1 0 0 = Form.when (loNib b1 = 0) (i (hiNib b1))) (rn : Gpr) :
    DecodesTo (enc2 b0 (rn ++ 0x0#4)) (i rn) := by
  refine decodesTo_enc2 hl ?_
  rw [h, hiNib_append, loNib_append]
  exact Form.when_true rfl

/-- A GPR in both nibbles: DIV. -/
theorem decodesTo_nibble_twice {i : Gpr → Instr}
    (h : ∀ b1, decodeForm b0 b1 0 0 = Form.when (hiNib b1 = loNib b1) (i (hiNib b1))) (rn : Gpr) :
    DecodesTo (enc2 b0 (rn ++ rn)) (i rn) := by
  refine decodesTo_enc2 hl ?_
  rw [h, hiNib_append, loNib_append]
  exact Form.when_true (decide_eq_true rfl)

/-- A condition and a GPR (R175). -/
theorem decodesTo_cond_gpr {i : Cc → Gpr → Instr}
    (h : ∀ b1, decodeForm b0 b1 0 0 = .ok (i (ccOf (hiNib b1)) (loNib b1))) (cc : Cc) (rn : Gpr) :
    DecodesTo (enc2 b0 (ccNum cc ++ rn)) (i cc rn) := by
  refine decodesTo_enc2 hl ?_
  rw [h, hiNib_append, loNib_append, ccOf_ccNum]

variable {r3 : Gpr → BitVec 3 → Instr} {ri rip : Gpr → BitVec 2 → Instr}

theorem decodesTo_data3 (h : ∀ b1, decodeForm b0 b1 0 0 = shortForm b1 r3 ri rip) (rn : Gpr) (d : BitVec 3) :
    DecodesTo (enc2 b0 (rn ++ (0b0#1 ++ d))) (r3 rn d) :=
  decodesTo_enc2 hl ((h _).trans (shortForm_data3 rn r3 ri rip d))

theorem decodesTo_indirect (h : ∀ b1, decodeForm b0 b1 0 0 = shortForm b1 r3 ri rip) (rn : Gpr) (p : BitVec 2) :
    DecodesTo (enc2 b0 (rn ++ (0b10#2 ++ p))) (ri rn p) :=
  decodesTo_enc2 hl ((h _).trans (shortForm_indirect rn r3 ri rip p))

theorem decodesTo_postInc (h : ∀ b1, decodeForm b0 b1 0 0 = shortForm b1 r3 ri rip) (rn : Gpr) (p : BitVec 2) :
    DecodesTo (enc2 b0 (rn ++ (0b11#2 ++ p))) (rip rn p) :=
  decodesTo_enc2 hl ((h _).trans (shortForm_postInc rn r3 ri rip p))

end

/-- The trap number in the upper seven bits. -/
theorem decodesTo_trap (n : BitVec 7) : DecodesTo (encode (.trap n)) (.trap n) := by
  have hfixed : (n ++ 0b0#1).extractLsb' 0 1 = 0 := BitVec.extractLsb'_append_eq_right
  have hnumber : (n ++ 0b0#1).extractLsb' 1 7 = n := BitVec.extractLsb'_append_eq_left
  refine decodesTo_enc2 rfl ?_
  show Form.when ((n ++ 0b0#1).extractLsb' 0 1 = 0) (.trap ((n ++ 0b0#1).extractLsb' 1 7)) = _
  rw [hfixed, hnumber]
  exact Form.when_true rfl

/-! ## An operand in the high nibble of the opcode (BCLR, BSET, JMPR) -/

theorem decodesTo_bclr (bitoff : Byte) (q : BitVec 4) : DecodesTo (encode (.bclr bitoff q)) (.bclr bitoff q) := by
  refine decodesTo_enc2 (Laws.EncodedLength.isLong_high q _ (by decide)) ?_
  cases q with
  | ofFin n => fin_cases n <;> rfl

theorem decodesTo_bset (bitoff : Byte) (q : BitVec 4) : DecodesTo (encode (.bset bitoff q)) (.bset bitoff q) := by
  refine decodesTo_enc2 (Laws.EncodedLength.isLong_high q _ (by decide)) ?_
  cases q with
  | ofFin n => fin_cases n <;> rfl

theorem decodesTo_jmpr (cc : Cc) (rel : Byte) : DecodesTo (encode (.jmpr cc rel)) (.jmpr cc rel) := by
  refine decodesTo_enc2 (Laws.EncodedLength.isLong_high (ccNum cc) _ (by decide)) ?_
  cases cc <;> rfl

/-! ## The layouts of four bytes -/

section
variable {b0 : Byte} (hl : isLong b0 = true)
include hl

theorem decodesTo_byte_word {i : Byte → Word → Instr}
    (h : ∀ b1 b2 b3, decodeForm b0 b1 b2 b3 = .ok (i b1 (wordOf b2 b3))) (b1 : Byte) (v : Word) :
    DecodesTo (enc4 b0 b1 v) (i b1 v) := by
  refine decodesTo_four hl ?_
  rw [h, wordOf_bytes]

/-- The same where the instruction names the word first. -/
theorem decodesTo_word_byte {i : Word → Byte → Instr}
    (h : ∀ b1 b2 b3, decodeForm b0 b1 b2 b3 = .ok (i (wordOf b2 b3) b1)) (v : Word) (b1 : Byte) :
    DecodesTo (enc4 b0 b1 v) (i v b1) := decodesTo_byte_word hl (i := fun b1 v => i v b1) h b1 v

theorem decodesTo_nibbles_word {i : BitVec 4 → BitVec 4 → Word → Instr}
    (h : ∀ b1 b2 b3, decodeForm b0 b1 b2 b3 = .ok (i (hiNib b1) (loNib b1) (wordOf b2 b3))) (x y : BitVec 4)
    (v : Word) : DecodesTo (enc4 b0 (x ++ y) v) (i x y v) := by
  refine decodesTo_four hl ?_
  rw [h, hiNib_append, loNib_append, wordOf_bytes]

/-- A fixed high nibble and a GPR. -/
theorem decodesTo_fixed_gpr_word {i : Gpr → Word → Instr} {fixed : BitVec 4}
    (h : ∀ b1 b2 b3, decodeForm b0 b1 b2 b3 = Form.when (hiNib b1 = fixed) (i (loNib b1) (wordOf b2 b3))) (rn : Gpr)
    (v : Word) : DecodesTo (enc4 b0 (fixed ++ rn) v) (i rn v) := by
  refine decodesTo_four hl ?_
  rw [h, hiNib_append, loNib_append, wordOf_bytes]
  exact Form.when_true (decide_eq_true rfl)

/-- A condition, 0 in the low nibble, and a code address (R175). -/
theorem decodesTo_cond_word {i : Cc → Word → Instr}
    (h : ∀ b1 b2 b3, decodeForm b0 b1 b2 b3 = Form.when (loNib b1 = 0) (i (ccOf (hiNib b1)) (wordOf b2 b3))) (cc : Cc)
    (v : Word) : DecodesTo (enc4 b0 (ccNum cc ++ 0x0#4) v) (i cc v) := by
  refine decodesTo_four hl ?_
  rw [h, hiNib_append, loNib_append, wordOf_bytes, ccOf_ccNum]
  exact Form.when_true rfl

/-- Two bit operands (R170). -/
theorem decodesTo_bit_bit {i : Byte → BitVec 4 → Byte → BitVec 4 → Instr}
    (h : ∀ b1 b2 b3, decodeForm b0 b1 b2 b3 = .ok (i b2 (loNib b3) b1 (hiNib b3))) (bitZ : Byte) (z : BitVec 4)
    (bitQ : Byte) (q : BitVec 4) : DecodesTo [b0, bitQ, bitZ, q ++ z] (i bitZ z bitQ q) := by
  refine decodesTo_four hl ?_
  rw [h, hiNib_append, loNib_append]

/-- A bit operand, a relative target, 0 in the low nibble of byte 3. -/
theorem decodesTo_bit_rel {i : Byte → BitVec 4 → Byte → Instr}
    (h : ∀ b1 b2 b3, decodeForm b0 b1 b2 b3 = Form.when (loNib b3 = 0) (i b1 (hiNib b3) b2)) (bitoff : Byte)
    (q : BitVec 4) (rel : Byte) : DecodesTo [b0, bitoff, rel, q ++ 0x0#4] (i bitoff q rel) := by
  refine decodesTo_four hl ?_
  rw [h, hiNib_append, loNib_append]
  exact Form.when_true rfl

end

/-! ## Every instruction -/

/-- The encoding of a well-formed instruction decodes to it: one layout for each group of instructions. -/
theorem encode_decodesTo (i : Instr) (hwf : i.wf = true) : DecodesTo (encode i) i := by
  match i, hwf with
  | .addRR x y, _ | .addbRR x y, _ | .addcRR x y, _ | .addcbRR x y, _ | .subRR x y, _ | .subbRR x y, _
  | .subcRR x y, _ | .subcbRR x y, _ | .cmpRR x y, _ | .cmpbRR x y, _ | .xorRR x y, _ | .xorbRR x y, _
  | .andRR x y, _ | .andbRR x y, _ | .orRR x y, _ | .orbRR x y, _ | .mul x y, _ | .mulu x y, _
  | .rolRR x y, _ | .rorRR x y, _ | .shlRR x y, _ | .shrRR x y, _ | .ashrRR x y, _ | .prior x y, _
  | .movRR x y, _ | .movRI x y, _ | .movRIP x y, _ | .movII x y, _ | .movIPI x y, _ | .movIIP x y, _
  | .movbRR x y, _ | .movbRI x y, _ | .movbRIP x y, _ | .movbII x y, _ | .movbIPI x y, _ | .movbIIP x y, _ =>
    exact decodesTo_nibbles rfl (fun _ => rfl) x y
  | .rolR4 y x, _ | .rorR4 y x, _ | .shlR4 y x, _ | .shrR4 y x, _ | .ashrR4 y x, _ | .movR4 y x, _ | .movbR4 y x, _
  | .cmpi1R4 y x, _ | .cmpi2R4 y x, _ | .cmpd1R4 y x, _ | .cmpd2R4 y x, _ | .movIR y x, _ | .movDR y x, _
  | .movbIR y x, _ | .movbDR y x, _ | .movbsRR y x, _ | .movbzRR y x, _ =>
    exact decodesTo_nibbles_swap rfl (fun _ => rfl) y x
  | .addR3 rn d, _ | .addbR3 rn d, _ | .addcR3 rn d, _ | .addcbR3 rn d, _ | .subR3 rn d, _ | .subbR3 rn d, _
  | .subcR3 rn d, _ | .subcbR3 rn d, _ | .cmpR3 rn d, _ | .cmpbR3 rn d, _ | .xorR3 rn d, _ | .xorbR3 rn d, _
  | .andR3 rn d, _ | .andbR3 rn d, _ | .orR3 rn d, _ | .orbR3 rn d, _ =>
    exact decodesTo_data3 rfl (fun _ => rfl) rn d
  | .addRI rn p, _ | .addbRI rn p, _ | .addcRI rn p, _ | .addcbRI rn p, _ | .subRI rn p, _ | .subbRI rn p, _
  | .subcRI rn p, _ | .subcbRI rn p, _ | .cmpRI rn p, _ | .cmpbRI rn p, _ | .xorRI rn p, _ | .xorbRI rn p, _
  | .andRI rn p, _ | .andbRI rn p, _ | .orRI rn p, _ | .orbRI rn p, _ =>
    exact decodesTo_indirect rfl (fun _ => rfl) rn p
  | .addRIP rn p, _ | .addbRIP rn p, _ | .addcRIP rn p, _ | .addcbRIP rn p, _ | .subRIP rn p, _ | .subbRIP rn p, _
  | .subcRIP rn p, _ | .subcbRIP rn p, _ | .cmpRIP rn p, _ | .cmpbRIP rn p, _ | .xorRIP rn p, _ | .xorbRIP rn p, _
  | .andRIP rn p, _ | .andbRIP rn p, _ | .orRIP rn p, _ | .orbRIP rn p, _ =>
    exact decodesTo_postInc rfl (fun _ => rfl) rn p
  | .addRegImm q v, _ | .addcRegImm q v, _ | .subRegImm q v, _ | .subcRegImm q v, _ | .cmpRegImm q v, _
  | .xorRegImm q v, _ | .andRegImm q v, _ | .orRegImm q v, _ | .movRegImm q v, _ | .scxtRegImm q v, _
  | .addRegMem q v, _ | .addbRegMem q v, _ | .addcRegMem q v, _ | .addcbRegMem q v, _ | .subRegMem q v, _
  | .subbRegMem q v, _ | .subcRegMem q v, _ | .subcbRegMem q v, _ | .cmpRegMem q v, _ | .cmpbRegMem q v, _
  | .xorRegMem q v, _ | .xorbRegMem q v, _ | .andRegMem q v, _ | .andbRegMem q v, _ | .orRegMem q v, _
  | .orbRegMem q v, _ | .movRegMem q v, _ | .movbRegMem q v, _ | .movbsRegMem q v, _ | .movbzRegMem q v, _
  | .scxtRegMem q v, _ | .jmps q v, _ | .calls q v, _ | .pcall q v, _ =>
    exact decodesTo_byte_word rfl (fun _ _ _ => rfl) q v
  | .addMemReg v q, _ | .addbMemReg v q, _ | .addcMemReg v q, _ | .addcbMemReg v q, _ | .subMemReg v q, _
  | .subbMemReg v q, _ | .subcMemReg v q, _ | .subcbMemReg v q, _ | .xorMemReg v q, _ | .xorbMemReg v q, _
  | .andMemReg v q, _ | .andbMemReg v q, _ | .orMemReg v q, _ | .orbMemReg v q, _ | .movMemReg v q, _
  | .movbMemReg v q, _ | .movbsMemReg v q, _ | .movbzMemReg v q, _ =>
    exact decodesTo_word_byte rfl (fun _ _ _ => rfl) v q
  | .addbRegImm q d, _ | .addcbRegImm q d, _ | .subbRegImm q d, _ | .subcbRegImm q d, _ | .cmpbRegImm q d, _
  | .xorbRegImm q d, _ | .andbRegImm q d, _ | .orbRegImm q d, _ | .movbRegImm q d, _ =>
    exact decodesTo_four rfl rfl
  | .bfldl bitoff mask d, _ | .bfldh bitoff mask d, _ => exact decodesTo_four rfl rfl
  | .div rn, _ | .divu rn, _ | .divl rn, _ | .divlu rn, _ => exact decodesTo_nibble_twice rfl (fun _ => rfl) rn
  | .cpl rn, _ | .cplb rn, _ | .neg rn, _ | .negb rn, _ => exact decodesTo_nibble_zero rfl (fun _ => rfl) rn
  | .cmpi1R16 rn v, _ | .cmpi2R16 rn v, _ | .cmpd1R16 rn v, _ | .cmpd2R16 rn v, _ | .cmpi1RMem rn v, _
  | .cmpi2RMem rn v, _ | .cmpd1RMem rn v, _ | .cmpd2RMem rn v, _ | .movIMem rn v, _ | .movbIMem rn v, _ =>
    exact decodesTo_fixed_gpr_word rfl (fun _ _ _ => rfl) rn v
  | .movMemI v rn, _ => exact decodesTo_fixed_gpr_word (i := fun rn v => .movMemI v rn) rfl (fun _ _ _ => rfl) rn v
  | .movbMemI v rn, _ => exact decodesTo_fixed_gpr_word (i := fun rn v => .movbMemI v rn) rfl (fun _ _ _ => rfl) rn v
  | .movRX x y v, _ | .movbRX x y v, _ => exact decodesTo_nibbles_word rfl (fun _ _ _ => rfl) x y v
  | .movXR y v x, _ => exact decodesTo_nibbles_word (i := fun x y v => .movXR y v x) rfl (fun _ _ _ => rfl) x y v
  | .movbXR y v x, _ => exact decodesTo_nibbles_word (i := fun x y v => .movbXR y v x) rfl (fun _ _ _ => rfl) x y v
  | .bcmp bz z bq q, _ | .bmovn bz z bq q, _ | .bmov bz z bq q, _ | .bor bz z bq q, _ | .band bz z bq q, _
  | .bxor bz z bq q, _ =>
    exact decodesTo_bit_bit rfl (fun _ _ _ => rfl) bz z bq q
  | .bclr bitoff q, _ => exact decodesTo_bclr bitoff q
  | .bset bitoff q, _ => exact decodesTo_bset bitoff q
  | .push q, _ | .pop q, _ | .retp q, _ | .callr q, _ => exact decodesTo_byte rfl (fun _ => rfl) q
  | .jmpa cc v, _ | .calla cc v, _ => exact decodesTo_cond_word rfl (fun _ _ _ => rfl) cc v
  | .jmpi cc rn, _ | .calli cc rn, _ => exact decodesTo_cond_gpr rfl (fun _ => rfl) cc rn
  | .jmpr cc rel, _ => exact decodesTo_jmpr cc rel
  | .jb bitoff q rel, _ | .jnb bitoff q rel, _ | .jbc bitoff q rel, _ | .jnbs bitoff q rel, _ =>
    exact decodesTo_bit_rel rfl (fun _ _ _ => rfl) bitoff q rel
  | .trap n, _ => exact decodesTo_trap n
  | .ret, _ | .rets, _ | .reti, _ | .nop, _ => exact decodesTo_enc2 rfl rfl
  | .srst, _ | .idle, _ | .pwrdn, _ | .srvwdt, _ | .diswdt, _ | .einit, _ => exact decodesTo_four rfl rfl
  | .atomic n, h =>
    obtain ⟨hform, -⟩ := extD1_append h
    exact decodesTo_enc2 rfl hform
  | .extr n, h =>
    obtain ⟨-, hform⟩ := extD1_append h
    exact decodesTo_enc2 rfl hform
  | .extsR rm n, h =>
    obtain ⟨hform, -⟩ := extDC_append rm h
    exact decodesTo_enc2 rfl hform
  | .extpR rm n, h =>
    obtain ⟨-, hform, -⟩ := extDC_append rm h
    exact decodesTo_enc2 rfl hform
  | .extsrR rm n, h =>
    obtain ⟨-, -, hform, -⟩ := extDC_append rm h
    exact decodesTo_enc2 rfl hform
  | .extprR rm n, h =>
    obtain ⟨-, -, -, hform⟩ := extDC_append rm h
    exact decodesTo_enc2 rfl hform
  | .extsImm seg n, h =>
    obtain ⟨hform, -⟩ := extD7_seg seg h
    exact decodesTo_four rfl hform
  | .extsrImm seg n, h =>
    obtain ⟨-, hform⟩ := extD7_seg seg h
    exact decodesTo_four rfl hform
  | .extpImm pag n, h =>
    obtain ⟨hform, -⟩ := extD7_page pag h
    exact decodesTo_four rfl hform
  | .extprImm pag n, h =>
    obtain ⟨-, hform⟩ := extD7_page pag h
    exact decodesTo_four rfl hform

/-- Settles O57, by the layouts that `encode_decodesTo` names. -/
theorem decodeEncode : Obligations.DecodeEncode := by
  unfold Obligations.DecodeEncode
  exact fun i rest hwf => encode_decodesTo i hwf rest

/-- Settles O56: the decoder evaluated on each word. -/
theorem decodeWords : Obligations.DecodeWords := by
  unfold Obligations.DecodeWords
  decide

end Sys2Proof

namespace Sys2Proof.Machine

/-! ## The flags of a comparison as facts about its two operands (42_compare_loop.md R280) -/

section
variable {w : Nat} (a b : BitVec w)

theorem subWith_result (zIn : Bool) : (subWith a b false zIn).1 = a - b := BitVec.sub_zero _

theorem cmpFlags_z : (cmpFlags a b).z = true ↔ a = b := by
  have hz : (cmpFlags a b).z = (a - b == 0) := by
    rw [← subWith_result a b true]
    exact Bool.and_true _
  rw [hz, beq_iff_eq]
  exact sub_eq_zero

theorem cmpFlags_c : (cmpFlags a b).c = true ↔ a.toNat < b.toNat := decide_eq_true_iff

theorem cmpFlags_n : (cmpFlags a b).n = (a - b).msb := by
  rw [← subWith_result a b true]
  rfl

theorem cmpFlags_v : (cmpFlags a b).v = a.ssubOverflow b := by
  have hv : (cmpFlags a b).v = (a.msb != b.msb && (a - b).msb != a.msb) := by
    rw [← subWith_result a b true]
    rfl
  rw [hv, BitVec.ssubOverflow_eq]
  cases a.msb <;> cases b.msb <;> cases (a - b).msb <;> rfl

/-- N differs from V exactly where the difference of the signed numbers is negative: without an overflow N is its sign,
with one N is the opposite of it. -/
theorem cmpFlags_n_ne_v : ((cmpFlags a b).n != (cmpFlags a b).v) = true ↔ a.toInt < b.toInt := by
  rw [cmpFlags_n, cmpFlags_v]
  cases hover : a.ssubOverflow b with
  | true =>
    rw [BitVec.ssubOverflow_eq] at hover
    simp only [BitVec.msb_eq_toInt, Bool.or_eq_true, Bool.and_eq_true, Bool.not_eq_true', decide_eq_true_eq,
      decide_eq_false_iff_not, Bool.bne_true] at hover ⊢
    omega
  | false =>
    have hsign : (a - b).msb = decide (a.toInt - b.toInt < 0) := by
      rw [BitVec.msb_eq_toInt, BitVec.toInt_sub_of_not_ssubOverflow (by rw [hover]; decide)]
    rw [hsign, Bool.bne_false, decide_eq_true_iff]
    omega

theorem cmpFlags_n_eq_v : ((cmpFlags a b).n == (cmpFlags a b).v) = true ↔ b.toInt ≤ a.toInt := by
  rw [← Int.not_lt, ← cmpFlags_n_ne_v, bne, Bool.not_eq_true', Bool.not_eq_false]

end

/-- Settles O5: the table by its sixteen rows, the comparisons by what Z, C and N ≠ V tell. -/
theorem branchConditions : Obligations.BranchConditions := by
  unfold Obligations.BranchConditions
  refine ⟨fun f => rfl, fun a b => ?_⟩
  have hzu : (cmpFlags a b).z = true ↔ a.toNat = b.toNat := (cmpFlags_z a b).trans BitVec.toNat_inj.symm
  have hzs : (cmpFlags a b).z = true ↔ a.toInt = b.toInt := (cmpFlags_z a b).trans BitVec.toInt_inj.symm
  have hc := cmpFlags_c a b
  have hslt := cmpFlags_n_ne_v a b
  have hsge := cmpFlags_n_eq_v a b
  refine ⟨cmpFlags_z a b, hc, ?ule, ?ugt, ?nc, hslt, ?sle, ?sgt, hsge⟩
  case ule =>
    simp only [condition, Bool.or_eq_true, hzu, hc]
    omega
  case ugt =>
    simp only [condition, Bool.and_eq_true, Bool.not_eq_true', ← Bool.not_eq_true, hzu, hc]
    omega
  case nc =>
    simp only [condition, Bool.not_eq_true', ← Bool.not_eq_true, hc]
    omega
  case sle =>
    simp only [condition, Bool.or_eq_true, hzs, hslt]
    omega
  case sgt =>
    simp only [condition, Bool.and_eq_true, Bool.not_eq_true', ← Bool.not_eq_true, hzs, hsge]
    omega

end Sys2Proof.Machine

namespace Sys2Proof.Machine

/-! ## From the run of an operand form to the claim about its instructions -/

/-- An instruction ends as its computation does. -/
theorem exec_of_run {act : Act Unit} {i : Instr} {s : State} {P : State → Prop} (hi : exec i s = act.toOutcome s)
    (h : ∃ t, act s = .ok ((), t) ∧ P t) : ∃ t, exec i s = .next t ∧ P t := by
  obtain ⟨t, ht, hp⟩ := h
  exact ⟨t, hi.trans (Act.toOutcome_ok ht), hp⟩

section
variable {w : Nat} {W : Width w} {V : View w} (M : Matches W V) {f : Alu w} {i : Gpr → BitVec 2 → Instr}
include M

theorem aluRI_of_exec (hi : ∀ rn ri s, exec (i rn ri) s = (aluRI W f rn ri).toOutcome s) : AluRI V f i :=
  fun s rn ri _ _ hb hr => exec_of_run (hi rn ri s) (aluRI_done M f rn ri hb hr)

theorem aluRIP_of_exec (hi : ∀ rn ri s, exec (i rn ri) s = (aluRIP W f rn ri).toOutcome s) : AluRIP V f i := by
  intro s rn ri b r hb hr
  obtain ⟨hapart, hwithin⟩ := aluRIP_done M f rn ri hb hr
  exact ⟨fun h => exec_of_run (hi rn ri s) (hapart h), fun h => exec_of_run (hi rn ri s) (hwithin h)⟩

end

/-- Settles O7: each instruction is the form `aluRI` of its operation. -/
theorem aluIndirect : Obligations.AluIndirect := by
  unfold Obligations.AluIndirect
  have word {f : Alu 16} {i : Gpr → BitVec 2 → Instr} := aluRI_of_exec word_matches (f := f) (i := i)
  have byte {f : Alu 8} {i : Gpr → BitVec 2 → Instr} := aluRI_of_exec byte_matches (f := f) (i := i)
  exact ⟨word fun _ _ _ => rfl, byte fun _ _ _ => rfl, word fun _ _ _ => rfl, byte fun _ _ _ => rfl,
    word fun _ _ _ => rfl, byte fun _ _ _ => rfl, word fun _ _ _ => rfl, byte fun _ _ _ => rfl,
    word fun _ _ _ => rfl, byte fun _ _ _ => rfl, word fun _ _ _ => rfl, byte fun _ _ _ => rfl,
    word fun _ _ _ => rfl, byte fun _ _ _ => rfl⟩

/-- Settles O8: each instruction is the form `aluRIP` of its operation. -/
theorem aluPostIncrement : Obligations.AluPostIncrement := by
  unfold Obligations.AluPostIncrement
  have word {f : Alu 16} {i : Gpr → BitVec 2 → Instr} := aluRIP_of_exec word_matches (f := f) (i := i)
  have byte {f : Alu 8} {i : Gpr → BitVec 2 → Instr} := aluRIP_of_exec byte_matches (f := f) (i := i)
  exact ⟨word fun _ _ _ => rfl, byte fun _ _ _ => rfl, word fun _ _ _ => rfl, byte fun _ _ _ => rfl,
    word fun _ _ _ => rfl, byte fun _ _ _ => rfl, word fun _ _ _ => rfl, byte fun _ _ _ => rfl,
    word fun _ _ _ => rfl, byte fun _ _ _ => rfl, word fun _ _ _ => rfl, byte fun _ _ _ => rfl,
    word fun _ _ _ => rfl, byte fun _ _ _ => rfl⟩

end Sys2Proof.Machine

namespace Sys2Proof.Machine

/-! ## What the views of the two widths have in common -/

/-- A view whose plain cells can be written, whose writes are known by what the cell holds, the flags, IP and the frame,
and whose cells hold what their bytes are. -/
structure View.Plain {w : Nat} (V : View w) : Prop where
  writable : ∀ {s : State} {a : Word} {k : Nat}, V.cell s a = some k → s.writeCell a = some k
  written : ∀ {u t : State} {k : Nat} {r : BitVec w} {f : Flags} {len : Nat}, V.Written u t k r f len →
    V.held t.mem k = r ∧ t.core.psw = Sys2Proof.Machine.withFlags u.core.psw f ∧
      t.core.ip = u.core.ip + BitVec.ofNat 16 len ∧ Agree u t (V.cells k)
  held_congr : ∀ {m n : Memory} {k : Nat}, (∀ c ∈ V.cells k, n.get c = m.get c) → V.held n k = V.held m k

theorem getWord_congr {m n : Memory} {k : Nat} (h : ∀ c ∈ wordCells k, n.get c = m.get c) :
    n.getWord k = m.getWord k := by
  unfold Memory.getWord
  rw [h k (by simp [wordCells]), h (k + 1) (by simp [wordCells])]

theorem wordView_plain : wordView.Plain where
  writable {s a k} h := by
    replace h : (if s.even a = true then s.writeCell a else none) = some k := h
    split at h
    · exact h
    · cases h
  written h := h
  held_congr h := getWord_congr h

theorem byteView_plain : byteView.Plain where
  writable h := h
  written h := h
  held_congr h := h _ (List.mem_singleton_self _)

/-! ## The register bank of two states that agree -/

theorem Agree.effCp {u t : State} {cells : List Nat} (h : Agree u t cells) : t.effCp = u.effCp :=
  show t.blank.effCp = u.blank.effCp by rw [h.1]

theorem Agree.bank {u t : State} {cells : List Nat} (h : Agree u t cells) : t.bank = u.bank := by
  unfold State.bank
  rw [h.effCp]

theorem Agree.gprAt {u t : State} {cells : List Nat} (h : Agree u t cells) (n : Gpr) : t.gprAt n = u.gprAt n := by
  unfold State.gprAt
  rw [h.effCp]

/-- A register apart from the changed cells is unchanged. -/
theorem Agree.gpr {u t : State} {cells : List Nat} (h : Agree u t cells) {n : Gpr}
    (hapart : ∀ c ∈ cells, c ∉ wordCells (u.gprAt n)) : t.gpr n = u.gpr n := by
  unfold State.gpr
  rw [h.gprAt]
  exact getWord_congr fun c hc => h.2 c fun hmem => hapart c hmem hc

/-! ## Stepping a pointer -/

theorem bump_gpr (s : State) (n : Gpr) (d : Word) : (s.bump n d).gpr n = s.gpr n + d := State.storeWord_getWord _ _ _

theorem bump_get (s : State) (n : Gpr) (d : Word) {c : Nat} (h : c ∉ wordCells (s.gprAt n)) :
    (s.bump n d).mem.get c = s.mem.get c := State.storeWord_get_other _ _ h

/-- A pointer stepped after a write: its cells join those of the write. -/
theorem Agree.bump {u x : State} {cells : List Nat} (h : Agree u x cells) (n : Gpr) (d : Word) :
    Agree u (x.bump n d) (cells ++ wordCells (u.gprAt n)) := by
  refine ⟨h.1, fun c hc => ?_⟩
  rw [List.mem_append, not_or] at hc
  obtain ⟨hwrite, hpointer⟩ := hc
  rw [bump_get x n d (by rw [h.gprAt]; exact hpointer)]
  exact h.2 c hwrite

/-! ## From the run of a move to the claim about its instructions -/

section
variable {w : Nat} {W : Width w} {V : View w} (M : Matches W V) {i : Gpr → Gpr → Instr}
include M

theorem movRIP_of_exec (hi : ∀ rn rm s, exec (i rn rm) s = (movRIP W rn rm).toOutcome s) : MovRIP V i := by
  intro s rn rm v r hb hr
  obtain ⟨hapart, hwithin⟩ := movRIP_done M rn rm hb hr
  exact ⟨fun h => exec_of_run (hi rn rm s) (hapart h), fun h => exec_of_run (hi rn rm s) (hwithin h)⟩

variable (P : V.Plain)
include P

theorem movDR_of_exec (hi : ∀ rm rn s, exec (i rm rn) s = (movDR W rm rn).toOutcome s) : MovDR V i :=
  fun s rm rn hb => memDone_of M (fun _ _ _ => P.writable) (hi rm rn s) fun _ ht => movDR_done M rm rn hb ht

theorem movIIP_of_exec
    (hi : ∀ rn rm s, exec (i rn rm) s = (movPlain (readPostInc W rm) (writeIndirect W rn) 2).toOutcome s) :
    MovIIP V i := by
  intro s rn rm v r hb hr
  have hbank : (r.bump rm V.step).bank = true := bump_bank ((M.readBank hr).trans hb)
  exact memDone_of M (fun _ _ _ => P.writable) (hi rn rm s) fun t ht =>
    movPlain_done (readPostInc_at M hb hr) (writeIndirect_at M rfl hbank ht) 2

theorem movIPI_of_exec (hi : ∀ rn rm s, exec (i rn rm) s = (movIPI W rn rm).toOutcome s) : MovIPI V i := by
  intro s rn rm v u hb hr
  have run {x : State} (hx : V.stored (u.withFlags (moveFlags u.core.psw v)) (u.gpr rn) v = some x)
      (hxb : x.bank = true) : exec (i rn rm) s = .next ((x.bump rn V.step).advance 2) :=
    (hi rn rm s).trans (Act.toOutcome_ok (movIPI_done M rn rm hb hr hx hxb))
  refine ⟨fun k hk => ?_, fun x hx hxb => run hx hxb⟩
  obtain ⟨x, hx, hwritten⟩ := M.cell (f := moveFlags u.core.psw v) v 2 hk
  obtain ⟨hheld, hpsw, hip, hagree⟩ := P.written hwritten
  replace hagree : Agree u x (V.cells k) := hagree
  have hxb : x.bank = true := hagree.bank.trans ((M.readBank hr).trans hb)
  refine ⟨_, run hx hxb, hpsw, hip, fun hapart => ⟨?_, ?_⟩, hagree.bump rn V.step⟩
  · exact (bump_gpr x rn V.step).trans (by rw [hagree.gpr hapart])
  · refine (P.held_congr fun c hc => ?_).trans hheld
    exact bump_get x rn V.step (by rw [hagree.gprAt]; exact hapart c hc)

end

/-- Settles O20: each instruction is the form of its operands. -/
theorem movePointers : Obligations.MovePointers := by
  unfold Obligations.MovePointers
  exact ⟨movRIP_of_exec word_matches fun _ _ _ => rfl, movRIP_of_exec byte_matches fun _ _ _ => rfl,
    movDR_of_exec word_matches wordView_plain fun _ _ _ => rfl,
    movDR_of_exec byte_matches byteView_plain fun _ _ _ => rfl,
    movIIP_of_exec word_matches wordView_plain fun _ _ _ => rfl,
    movIIP_of_exec byte_matches byteView_plain fun _ _ _ => rfl,
    movIPI_of_exec word_matches wordView_plain fun _ _ _ => rfl,
    movIPI_of_exec byte_matches byteView_plain fun _ _ _ => rfl⟩

end Sys2Proof.Machine

namespace Sys2Proof.Machine

/-! ## Sums and differences of words (40_arithmetic.md R240) -/

/-- A number of one bit more than the word wraps at most once. -/
theorem toInt_ofInt_cases {w : Nat} {x : Int} (hlo : -2 ^ w ≤ x) (hhi : x < 2 ^ w) :
    (BitVec.ofInt w x).toInt = x ∨ (BitVec.ofInt w x).toInt = x + 2 ^ w ∨ (BitVec.ofInt w x).toInt = x - 2 ^ w := by
  have hmod : x % 2 ^ w = x ∨ x % 2 ^ w = x + 2 ^ w := by
    rcases lt_or_ge x 0 with hneg | hpos
    · refine .inr ?_
      rw [← Int.add_emod_right]
      exact Int.emod_eq_of_lt (by omega) (by omega)
    · exact .inl (Int.emod_eq_of_lt hpos hhi)
  rw [BitVec.toInt_ofInt, Int.bmod_def]
  push_cast
  split <;> omega

theorem toInt_bounds {w : Nat} (a : BitVec w) : -2 ^ (w - 1) ≤ a.toInt ∧ a.toInt < 2 ^ (w - 1) :=
  ⟨a.le_toInt, a.toInt_lt⟩

theorem two_mul_half {w : Nat} (hw : 0 < w) : (2 : Int) * 2 ^ (w - 1) = 2 ^ w := by
  rw [mul_comm, ← pow_succ, Nat.sub_add_cancel hw]

section
variable {w : Nat} (a b : BitVec w) (c : Bool)

theorem ofInt_add_carry : BitVec.ofInt w (a.toInt + b.toInt + c.toNat) = a + b + BitVec.ofNat w c.toNat := by
  simp only [BitVec.ofInt_add, BitVec.ofInt_toInt, BitVec.ofInt_natCast]

theorem ofInt_sub_borrow : BitVec.ofInt w (a.toInt - b.toInt - c.toNat) = a - b - BitVec.ofNat w c.toNat := by
  simp only [Int.sub_eq_add_neg, BitVec.sub_eq_add_neg, BitVec.ofInt_add, BitVec.ofInt_neg, BitVec.ofInt_toInt,
    BitVec.ofInt_natCast]

/-- The top bits tell whether a sum overflowed. -/
theorem add_overflow_iff (hw : 0 < w) {r : BitVec w} (hr : r = a + b + BitVec.ofNat w c.toNat) :
    (a.msb == b.msb && r.msb != a.msb) = true ↔ r.toInt ≠ a.toInt + b.toInt + c.toNat := by
  have hhalf := two_mul_half hw
  have hc := c.toNat_le
  obtain ⟨ha, ha'⟩ := toInt_bounds a
  obtain ⟨hb, hb'⟩ := toInt_bounds b
  obtain ⟨hl, hl'⟩ := toInt_bounds r
  have hwrap := toInt_ofInt_cases (w := w) (x := a.toInt + b.toInt + c.toNat) (by omega) (by omega)
  rw [ofInt_add_carry, ← hr] at hwrap
  simp only [BitVec.msb_eq_toInt, Bool.and_eq_true, beq_iff_eq, bne_iff_ne, decide_eq_decide, ne_eq]
  omega

/-- The same for a difference. -/
theorem sub_overflow_iff (hw : 0 < w) {r : BitVec w} (hr : r = a - b - BitVec.ofNat w c.toNat) :
    (a.msb != b.msb && r.msb != a.msb) = true ↔ r.toInt ≠ a.toInt - b.toInt - c.toNat := by
  have hhalf := two_mul_half hw
  have hc := c.toNat_le
  obtain ⟨ha, ha'⟩ := toInt_bounds a
  obtain ⟨hb, hb'⟩ := toInt_bounds b
  obtain ⟨hl, hl'⟩ := toInt_bounds r
  have hwrap := toInt_ofInt_cases (w := w) (x := a.toInt - b.toInt - c.toNat) (by omega) (by omega)
  rw [ofInt_sub_borrow, ← hr] at hwrap
  simp only [BitVec.msb_eq_toInt, Bool.and_eq_true, bne_iff_ne, decide_eq_decide, ne_eq]
  omega

end

/-! ## The flags every ALU operation computes in the same way -/

section
variable {w : Nat}

theorem msb_iff_toInt_neg (r : BitVec w) : r.msb = true ↔ r.toInt < 0 := by
  rw [BitVec.msb_eq_toInt, decide_eq_true_iff]

theorem endOfTable_iff (b : BitVec w) : endOfTable b = true ↔ b = BitVec.intMin w := beq_iff_eq

theorem endOfTable_iff_toInt (hw : 0 < w) (b : BitVec w) : endOfTable b = true ↔ b.toInt = -2 ^ (w - 1) := by
  rw [endOfTable_iff, ← BitVec.toInt_inj, BitVec.toInt_intMin_of_pos hw]

/-- Z of an operation that uses the carry is ANDed with the old Z (R223, R227). -/
theorem chained_zero_iff (r : BitVec w) (carry : Bool) (psw : Word) :
    (r == 0 && (!carry || wbit psw 3)) = true ↔ r = 0 ∧ (carry = true → wbit psw 3 = true) := by
  rw [Bool.and_eq_true, beq_iff_eq]
  cases carry <;> simp

/-- The carry as the bit that goes into the sum. -/
theorem carryIn_eq (carry : Bool) (psw : Word) : carryIn carry psw = (carry && wbit psw 1).toNat := by
  cases carry <;> rfl

/-! ## The operations of the ALU -/

theorem addWith_result (a b : BitVec w) (cin zIn : Bool) :
    (addWith a b cin zIn).1 = a + b + BitVec.ofNat w cin.toNat := by
  show BitVec.ofNat w (a.toNat + b.toNat + cin.toNat) = _
  simp only [BitVec.ofNat_add, BitVec.ofNat_toNat, BitVec.setWidth_eq]

/-- `ADDF` with or without the carry adds. -/
theorem addMeans_of (hw : 0 < w) {f : Alu w} {carry : Bool}
    (hf : ∀ psw a b, f psw a b = addWith a b (carry && wbit psw 1) (!carry || wbit psw 3)) : AddMeans f carry := by
  intro psw a b
  have hr := addWith_result a b (carry && wbit psw 1) (!carry || wbit psw 3)
  rw [hf, carryIn_eq]
  exact ⟨hr, endOfTable_iff_toInt hw b, chained_zero_iff _ carry psw, add_overflow_iff a b _ hw hr,
    decide_eq_true_iff, msb_iff_toInt_neg _⟩

/-- `SUBF` with or without the borrow subtracts. -/
theorem subMeans_of (hw : 0 < w) {f : Alu w} {carry : Bool}
    (hf : ∀ psw a b, f psw a b = subWith a b (carry && wbit psw 1) (!carry || wbit psw 3)) : SubMeans f carry := by
  intro psw a b
  rw [hf, carryIn_eq]
  exact ⟨rfl, endOfTable_iff_toInt hw b, chained_zero_iff _ carry psw, sub_overflow_iff a b _ hw rfl,
    decide_eq_true_iff, msb_iff_toInt_neg _⟩

/-- A bitwise operation with the flags of R260. -/
theorem logicMeans_of (hw : 0 < w) {f : Alu w} {op : BitVec w → BitVec w → BitVec w} {g : Bool → Bool → Bool}
    (hf : ∀ psw a b, f psw a b = (op a b, logicFlags b (op a b)))
    (hop : ∀ a b i, (op a b).getLsbD i = g (a.getLsbD i) (b.getLsbD i)) : LogicMeans f g := by
  intro psw a b
  rw [hf]
  exact ⟨fun i _ => hop a b i, endOfTable_iff_toInt hw b, beq_iff_eq, rfl, rfl, msb_iff_toInt_neg _⟩

theorem aluAdd_means (hw : 0 < w) : AddMeans (w := w) aluAdd false := addMeans_of hw fun _ _ _ => rfl

theorem aluAddc_means (hw : 0 < w) : AddMeans (w := w) aluAddc true := addMeans_of hw fun _ _ _ => rfl

theorem aluSub_means (hw : 0 < w) : SubMeans (w := w) aluSub false := subMeans_of hw fun _ _ _ => rfl

theorem aluSubc_means (hw : 0 < w) : SubMeans (w := w) aluSubc true := subMeans_of hw fun _ _ _ => rfl

theorem aluAnd_means (hw : 0 < w) : LogicMeans (w := w) aluAnd and :=
  logicMeans_of hw (fun _ _ _ => rfl) fun _ _ _ => BitVec.getLsbD_and

theorem aluOr_means (hw : 0 < w) : LogicMeans (w := w) aluOr or :=
  logicMeans_of hw (fun _ _ _ => rfl) fun _ _ _ => BitVec.getLsbD_or

theorem aluXor_means (hw : 0 < w) : LogicMeans (w := w) aluXor xor :=
  logicMeans_of hw (fun _ _ _ => rfl) fun _ _ _ => BitVec.getLsbD_xor

/-! ## Complement and negation -/

theorem cplOf_means (hw : 0 < w) (a : BitVec w) :
    (∀ i : Nat, i < w → (cplOf a).1.getLsbD i = !a.getLsbD i) ∧ (cplOf a).2.v = false ∧ (cplOf a).2.c = false ∧
      ((cplOf a).2.e = true ↔ a = BitVec.intMin w) ∧ ((cplOf a).2.z = true ↔ a = BitVec.allOnes w) ∧
      (cplOf a).2.n = !a.msb := by
  have hz : (cplOf a).2.z = true ↔ a = BitVec.allOnes w := by
    show (~~~a == 0) = true ↔ _
    rw [beq_iff_eq, BitVec.not_eq_comm]
    exact iff_of_eq (congrArg (a = ·) BitVec.not_zero)
  have hn : (cplOf a).2.n = !a.msb := by
    show (~~~a).msb = _
    rw [BitVec.msb_not, decide_eq_true hw, Bool.true_and]
  refine ⟨fun i hi => ?_, rfl, rfl, endOfTable_iff a, hz, hn⟩
  show (~~~a).getLsbD i = _
  rw [BitVec.getLsbD_not, decide_eq_true hi, Bool.true_and]

/-- `0 - a` overflows for the lowest number only. -/
theorem negOf_v (hw : 0 < w) (a : BitVec w) : (negOf a).2.v = true ↔ a = BitVec.intMin w := by
  show (cmpFlags 0 a).v = true ↔ _
  obtain ⟨hlo, hhi⟩ := toInt_bounds a
  rw [cmpFlags_v, ← endOfTable_iff, endOfTable_iff_toInt hw]
  simp only [BitVec.ssubOverflow, BitVec.ofNat_eq_ofNat, BitVec.toInt_zero, Bool.or_eq_true, decide_eq_true_eq]
  omega

theorem negOf_means (hw : 0 < w) (a : BitVec w) :
    (negOf a).1 = -a ∧ ((negOf a).2.c = true ↔ a ≠ 0) ∧ ((negOf a).2.v = true ↔ a = BitVec.intMin w) ∧
      ((negOf a).2.e = true ↔ a = BitVec.intMin w) ∧ ((negOf a).2.z = true ↔ a = 0) ∧
      (negOf a).2.n = (-a).msb := by
  have hr : (negOf a).1 = -a := (subWith_result 0 a true).trans (BitVec.zero_sub a)
  have hz : (negOf a).2.z = true ↔ a = 0 := (cmpFlags_z 0 a).trans eq_comm
  have hc : (negOf a).2.c = true ↔ a ≠ 0 := by
    refine (cmpFlags_c 0 a).trans ?_
    rw [ne_eq, ← BitVec.toNat_inj]
    exact Nat.pos_iff_ne_zero
  exact ⟨hr, hc, negOf_v hw a, endOfTable_iff a, hz, congrArg BitVec.msb hr⟩

end

/-- Settles O1: each operation is `ADDF` or `SUBF`, for every width. -/
theorem additionFlags : Obligations.AdditionFlags := by
  unfold Obligations.AdditionFlags
  exact ⟨aluAdd_means (by decide), aluAdd_means (by decide), aluAddc_means (by decide), aluAddc_means (by decide),
    aluSub_means (by decide), aluSub_means (by decide), aluSubc_means (by decide), aluSubc_means (by decide)⟩

/-- Settles O2: the logical operations, CPL and NEG for every width. -/
theorem logicAndUnaryFlags : Obligations.LogicAndUnaryFlags := by
  unfold Obligations.LogicAndUnaryFlags
  exact ⟨aluAnd_means (by decide), aluAnd_means (by decide), aluOr_means (by decide), aluOr_means (by decide),
    aluXor_means (by decide), aluXor_means (by decide), cplOf_means (by decide), cplOf_means (by decide),
    negOf_means (by decide), negOf_means (by decide)⟩

end Sys2Proof.Machine

namespace Sys2Proof.Machine

/-! ## Quotients and remainders (40_arithmetic.md R231 to R234) -/

/-- A remainder is smaller than the divisor. -/
theorem natAbs_tmod_lt (n : Int) {d : Int} (hd : d ≠ 0) : (n.tmod d).natAbs < d.natAbs := by
  rw [Int.natAbs_tmod]
  exact Nat.mod_lt _ (Int.natAbs_pos.mpr hd)

/-- A remainder other than 0 has the sign of the dividend. -/
theorem tmod_pos_iff {n d : Int} (hm : n.tmod d ≠ 0) : 0 < n.tmod d ↔ 0 < n := by
  have hndvd : ¬ d ∣ n := fun h => hm (Int.tmod_eq_zero_of_dvd h)
  rw [← Int.sign_eq_one_iff_pos, Int.sign_tmod, if_neg hndvd, Int.sign_eq_one_iff_pos]

/-- A division that answers, where the quotient fits, the words with the values of the truncated quotient and of the
remainder. -/
theorem divMeans_of {n d lo hi : Int} {value : Word → Int} {r : Option (Word × Word)}
    (hnone : d = 0 ∨ n.tdiv d < lo ∨ hi < n.tdiv d → r = none)
    (hsome : d ≠ 0 → lo ≤ n.tdiv d → n.tdiv d ≤ hi →
      ∃ q m, r = some (q, m) ∧ value q = n.tdiv d ∧ value m = n.tmod d) : DivMeans n d lo hi value r := by
  by_cases hout : d = 0 ∨ n.tdiv d < lo ∨ hi < n.tdiv d
  · rw [hnone hout]
    exact ⟨fun _ _ h => (nomatch h), iff_of_true rfl hout⟩
  · simp only [not_or, not_lt] at hout
    obtain ⟨hd, hlo, hhi⟩ := hout
    obtain ⟨q, m, rfl, hq, hm⟩ := hsome hd hlo hhi
    refine ⟨?_, iff_of_false (nomatch ·) (by omega)⟩
    rintro _ _ ⟨⟩
    rw [hq, hm]
    exact ⟨(Int.tdiv_mul_add_tmod n d).symm, natAbs_tmod_lt n hd, tmod_pos_iff⟩

theorem divSigned_means (n : Int) (d : Word) :
    DivMeans n d.toInt (-0x8000) 0x7FFF BitVec.toInt (divSigned n d.toInt) := by
  refine divMeans_of (fun hout => ?_) fun hd hlo hhi => ?_
  · unfold divSigned
    split
    · rfl
    · exact if_pos (hout.resolve_left ‹_›)
  · have hm : n - n.tdiv d.toInt * d.toInt = n.tmod d.toInt := by rw [Int.tmod_def, mul_comm]
    have hlt := natAbs_tmod_lt n hd
    obtain ⟨hdlo, hdhi⟩ := toInt_bounds d
    refine ⟨BitVec.ofInt 16 (n.tdiv d.toInt), BitVec.ofInt 16 (n.tmod d.toInt), ?_,
      BitVec.toInt_ofInt_eq_self (by decide) hlo (by omega), BitVec.toInt_ofInt_eq_self (by decide) (by omega) (by omega)⟩
    unfold divSigned
    rw [if_neg hd, ← hm]
    exact if_neg (by omega)

theorem divUnsigned_means (n : Nat) (d : Word) :
    DivMeans n d.toNat 0 0xFFFF (fun v => v.toNat) (divUnsigned n d.toNat) := by
  have hq : ((n / d.toNat : Nat) : Int) = (n : Int).tdiv d.toNat := Int.ofNat_tdiv n d.toNat
  have hm : ((n % d.toNat : Nat) : Int) = (n : Int).tmod d.toNat := Int.ofNat_tmod n d.toNat
  have hfit : 0xFFFF < n / d.toNat ↔ 0xFFFF < (n : Int).tdiv d.toNat := by rw [← hq, Nat.ofNat_lt_cast]
  have hnonneg : 0 ≤ (n : Int).tdiv d.toNat := hq ▸ Int.natCast_nonneg _
  refine divMeans_of (fun hout => ?_) fun hd hlo hhi => ?_
  · unfold divUnsigned
    split
    · rfl
    · exact if_pos (hfit.mpr (by omega))
  · have hdlt := d.isLt
    have hmlt : n % d.toNat < d.toNat := Nat.mod_lt _ (by omega)
    refine ⟨BitVec.ofNat 16 (n / d.toNat), BitVec.ofNat 16 (n % d.toNat), ?_, ?_, ?_⟩
    · unfold divUnsigned
      rw [if_neg (by omega)]
      exact if_neg (fun h => absurd (hfit.mp h) (by omega))
    · rw [← hq, BitVec.toNat_ofNat, Nat.mod_eq_of_lt (by omega)]
    · rw [← hm, BitVec.toNat_ofNat, Nat.mod_eq_of_lt (by omega)]

/-- Settles O3: each division is the signed or the unsigned quotient of its dividend. -/
theorem quotientsExact : Obligations.QuotientsExact := by
  unfold Obligations.QuotientsExact
  exact ⟨fun _ l d => divSigned_means l.toInt d, fun _ l d => divUnsigned_means l.toNat d,
    fun h l d => divSigned_means (h ++ l).toInt d, fun h l d => divUnsigned_means (h ++ l).toNat d⟩

end Sys2Proof.Machine

namespace Sys2Proof.Machine

/-! ## ALU instructions and comparisons from the runs of their operand forms -/

section
variable {w : Nat} {W : Width w} {V : View w} (M : Matches W V) {f : Alu w} {c : SpCheck}
include M

theorem aluRR_of_exec {i : Gpr → Gpr → Instr} (hi : ∀ rn rm s, exec (i rn rm) s = (aluRR W f rn rm).toOutcome s) :
    AluRR V f i :=
  fun s rn rm hb => exec_of_run (hi rn rm s) (aluRR_done M f rn rm hb)

theorem aluR3_of_exec {i : Gpr → BitVec 3 → Instr} (hi : ∀ rn d s, exec (i rn d) s = (aluR3 W f rn d).toOutcome s) :
    AluR3 V f i :=
  fun s rn d hb => exec_of_run (hi rn d s) (aluR3_done M f rn d hb)

theorem aluRegImm_of_exec {i : Byte → BitVec w → Instr}
    (hi : ∀ q d s, exec (i q d) s = (aluRegImm W f c q d).toOutcome s) : AluRegImm V f c i :=
  fun s q d _ _ hq => regDone_of M (hi q d s) fun _ ht => aluRegImm_done M f c d hq ht

theorem aluRegMem_of_exec {i : Byte → Word → Instr}
    (hi : ∀ q m s, exec (i q m) s = (aluRegMem W f c q m).toOutcome s) : AluRegMem V f c i :=
  fun s q m _ _ _ _ hm hq => regDone_of M (hi q m s) fun _ ht => aluRegMem_done M f c hm hq ht

theorem aluMemReg_of_exec (P : V.Plain) {i : Word → Byte → Instr}
    (hi : ∀ m q s, exec (i m q) s = (aluMemReg W f c m q).toOutcome s) : AluMemReg V f c i :=
  fun s m q _ _ _ _ hq hm =>
    memDone_of M (fun _ _ _ => P.writable) (hi m q s) fun _ ht => aluMemReg_done M f c hq hm ht

theorem cmpRR_of_exec {i : Gpr → Gpr → Instr} (hi : ∀ rn rm s, exec (i rn rm) s = (cmpRR W rn rm).toOutcome s) :
    CmpRR V i :=
  fun s rn rm hb => exec_of_run (hi rn rm s) (cmpStep_done (M.readGpr rm hb) (M.readGpr rn hb) 2)

theorem cmpR3_of_exec {i : Gpr → BitVec 3 → Instr} (hi : ∀ rn d s, exec (i rn d) s = (cmpR3 W rn d).toOutcome s) :
    CmpR3 V i :=
  fun s rn d hb => exec_of_run (hi rn d s) (cmpStep_done (op2 := pure (d.setWidth w)) rfl (M.readGpr rn hb) 2)

theorem cmpRI_of_exec {i : Gpr → BitVec 2 → Instr} (hi : ∀ rn ri s, exec (i rn ri) s = (cmpRI W rn ri).toOutcome s) :
    CmpRI V i :=
  fun s rn ri _ _ hb hr => exec_of_run (hi rn ri s)
    (cmpStep_done (readIndirect_at M hb hr) (M.readGpr rn ((M.readBank hr).trans hb)) 2)

theorem cmpRIP_of_exec {i : Gpr → BitVec 2 → Instr}
    (hi : ∀ rn ri s, exec (i rn ri) s = (cmpRIP W rn ri).toOutcome s) : CmpRIP V i :=
  fun s rn ri _ _ hb hr => exec_of_run (hi rn ri s) (cmpRIP_done M rn ri hb hr)

theorem cmpRegImm_of_exec {i : Byte → BitVec w → Instr}
    (hi : ∀ q d s, exec (i q d) s = (cmpRegImm W q d).toOutcome s) : CmpRegImm V i :=
  fun s q d _ _ hq => exec_of_run (hi q d s) (cmpStep_done (op2 := pure d) rfl (M.readReg hq) 4)

theorem cmpRegMem_of_exec {i : Byte → Word → Instr}
    (hi : ∀ q m s, exec (i q m) s = (cmpRegMem W q m).toOutcome s) : CmpRegMem V i :=
  fun s q m _ _ _ _ hm hq => exec_of_run (hi q m s) (cmpStep_done (M.readMem hm) (M.readReg hq) 4)

theorem unary_of_exec {g : BitVec w → BitVec w × Flags} {i : Gpr → Instr}
    (hi : ∀ rn s, exec (i rn) s = (unaryGpr W g rn).toOutcome s) : Unary V g i :=
  fun s rn hb => exec_of_run (hi rn s) (unaryGpr_done M g rn hb)

end

/-- Settles O6: each instruction is the form `aluRR` or `aluR3` of its operation. -/
theorem aluRegister : Obligations.AluRegister := by
  unfold Obligations.AluRegister
  have wordRR {f : Alu 16} {i : Gpr → Gpr → Instr} := aluRR_of_exec word_matches (f := f) (i := i)
  have byteRR {f : Alu 8} {i : Gpr → Gpr → Instr} := aluRR_of_exec byte_matches (f := f) (i := i)
  have wordR3 {f : Alu 16} {i : Gpr → BitVec 3 → Instr} := aluR3_of_exec word_matches (f := f) (i := i)
  have byteR3 {f : Alu 8} {i : Gpr → BitVec 3 → Instr} := aluR3_of_exec byte_matches (f := f) (i := i)
  exact ⟨wordRR fun _ _ _ => rfl, byteRR fun _ _ _ => rfl, wordRR fun _ _ _ => rfl, byteRR fun _ _ _ => rfl,
    wordRR fun _ _ _ => rfl, byteRR fun _ _ _ => rfl, wordRR fun _ _ _ => rfl, byteRR fun _ _ _ => rfl,
    wordRR fun _ _ _ => rfl, byteRR fun _ _ _ => rfl, wordRR fun _ _ _ => rfl, byteRR fun _ _ _ => rfl,
    wordRR fun _ _ _ => rfl, byteRR fun _ _ _ => rfl,
    wordR3 fun _ _ _ => rfl, byteR3 fun _ _ _ => rfl, wordR3 fun _ _ _ => rfl, byteR3 fun _ _ _ => rfl,
    wordR3 fun _ _ _ => rfl, byteR3 fun _ _ _ => rfl, wordR3 fun _ _ _ => rfl, byteR3 fun _ _ _ => rfl,
    wordR3 fun _ _ _ => rfl, byteR3 fun _ _ _ => rfl, wordR3 fun _ _ _ => rfl, byteR3 fun _ _ _ => rfl,
    wordR3 fun _ _ _ => rfl, byteR3 fun _ _ _ => rfl⟩

/-- Settles O10: each instruction is the form `aluRegMem` of its operation. -/
theorem aluRegisterMemory : Obligations.AluRegisterMemory := by
  unfold Obligations.AluRegisterMemory
  have word {f : Alu 16} {c : SpCheck} {i : Byte → Word → Instr} :=
    aluRegMem_of_exec word_matches (f := f) (c := c) (i := i)
  have byte {f : Alu 8} {c : SpCheck} {i : Byte → Word → Instr} :=
    aluRegMem_of_exec byte_matches (f := f) (c := c) (i := i)
  exact ⟨word fun _ _ _ => rfl, byte fun _ _ _ => rfl, word fun _ _ _ => rfl, byte fun _ _ _ => rfl,
    word fun _ _ _ => rfl, byte fun _ _ _ => rfl, word fun _ _ _ => rfl, byte fun _ _ _ => rfl,
    word fun _ _ _ => rfl, byte fun _ _ _ => rfl, word fun _ _ _ => rfl, byte fun _ _ _ => rfl,
    word fun _ _ _ => rfl, byte fun _ _ _ => rfl⟩

/-- Settles O11: each instruction is the form `aluMemReg` of its operation. -/
theorem aluMemoryRegister : Obligations.AluMemoryRegister := by
  unfold Obligations.AluMemoryRegister
  have word {f : Alu 16} {c : SpCheck} {i : Word → Byte → Instr} :=
    aluMemReg_of_exec word_matches (f := f) (c := c) wordView_plain (i := i)
  have byte {f : Alu 8} {c : SpCheck} {i : Word → Byte → Instr} :=
    aluMemReg_of_exec byte_matches (f := f) (c := c) byteView_plain (i := i)
  exact ⟨word fun _ _ _ => rfl, byte fun _ _ _ => rfl, word fun _ _ _ => rfl, byte fun _ _ _ => rfl,
    word fun _ _ _ => rfl, byte fun _ _ _ => rfl, word fun _ _ _ => rfl, byte fun _ _ _ => rfl,
    word fun _ _ _ => rfl, byte fun _ _ _ => rfl, word fun _ _ _ => rfl, byte fun _ _ _ => rfl,
    word fun _ _ _ => rfl, byte fun _ _ _ => rfl⟩

/-- Settles O12: each instruction is the comparison of its operand form. -/
theorem compare_flags : Obligations.Compare := by
  unfold Obligations.Compare
  exact ⟨cmpRR_of_exec word_matches fun _ _ _ => rfl, cmpRR_of_exec byte_matches fun _ _ _ => rfl,
    cmpR3_of_exec word_matches fun _ _ _ => rfl, cmpR3_of_exec byte_matches fun _ _ _ => rfl,
    cmpRI_of_exec word_matches fun _ _ _ => rfl, cmpRI_of_exec byte_matches fun _ _ _ => rfl,
    cmpRIP_of_exec word_matches fun _ _ _ => rfl, cmpRIP_of_exec byte_matches fun _ _ _ => rfl,
    cmpRegImm_of_exec word_matches fun _ _ _ => rfl, cmpRegImm_of_exec byte_matches fun _ _ _ => rfl,
    cmpRegMem_of_exec word_matches fun _ _ _ => rfl, cmpRegMem_of_exec byte_matches fun _ _ _ => rfl⟩

/-- Settles O14: each instruction is the form `unaryGpr` of its function. -/
theorem complementNegate : Obligations.ComplementNegate := by
  unfold Obligations.ComplementNegate
  exact ⟨unary_of_exec word_matches fun _ _ => rfl, unary_of_exec byte_matches fun _ _ => rfl,
    unary_of_exec word_matches fun _ _ => rfl, unary_of_exec byte_matches fun _ _ => rfl⟩

end Sys2Proof.Machine

namespace Sys2Proof.Machine

/-! ## The deferred stack trap (60_exceptions.md R555, R556) -/

/-- A mask without a bit in common with `t` or `q`. -/
theorem masks_apart {m t q : Word} (h : m &&& (t ||| q) = 0) : m &&& ~~~t = m ∧ m &&& q = 0 := by
  rw [BitVec.and_or_distrib_left] at h
  obtain ⟨ht, hq⟩ := BitVec.or_eq_zero_iff.mp h
  refine ⟨?_, hq⟩
  calc m &&& ~~~t = (m &&& t) ||| (m &&& ~~~t) := by rw [ht]; exact BitVec.zero_or.symm
    _ = m := by rw [← BitVec.and_or_distrib_left, BitVec.or_not_self]; exact BitVec.and_allOnes

section
variable {s : State} {m : Word}

theorem raiseDeferred_core (s : State) (m : Word) : (s.raiseDeferred m).core = (s.raise m).core := by
  unfold State.raiseDeferred
  dsimp only
  split <;> rfl

/-- A flag that is neither set nor requested requests its trap, which is deferred. -/
theorem raiseDeferred_clear (hm : m ≠ 0) (hclear : m &&& (s.core.tfr ||| s.sys.treq) = 0) :
    (s.raiseDeferred m).sys.treq = s.sys.treq ||| m ∧ (s.raiseDeferred m).sys.deferred = 2 := by
  obtain ⟨hmask, hapart⟩ := masks_apart hclear
  have htreq : (s.raise m).sys.treq = s.sys.treq ||| m := congrArg (s.sys.treq ||| ·) hmask
  have hne : (s.raise m).sys.treq ≠ s.sys.treq := by
    rw [htreq]
    intro heq
    have hboth : m &&& (s.sys.treq ||| m) = m := by
      rw [BitVec.and_or_distrib_left, hapart, BitVec.and_self]
      exact BitVec.zero_or
    exact hm (hboth.symm.trans ((congrArg (m &&& ·) heq).trans hapart))
  unfold State.raiseDeferred
  dsimp only
  rw [if_neg hne]
  exact ⟨htreq, rfl⟩

end

/-- A deferral of 2 holds class A traps behind its own instruction, and is over behind the next one. -/
theorem settle_deferred {t : State} (h : t.sys.deferred = 2) (i : Instr) :
    (t.settle i).classAOpen = false ∧ ∀ j, ((t.settle i).settle j).sys.deferred = 0 := by
  have hone : (t.settle i).sys.deferred = 1 := congrArg (· - 1) h
  refine ⟨?_, fun j => congrArg (· - 1) hone⟩
  unfold State.classAOpen
  rw [hone]
  exact Bool.and_false _

/-! ## ADD and SUB on SP (40_arithmetic.md R241) -/

/-- The flags and SP after an operation on SP and `d`, before its limit is checked. -/
def State.spComputed (s : State) (f : Alu 16) (d : Word) : State :=
  (s.withFlags (f s.core.psw s.core.sp d).2).writeSp (f s.core.psw s.core.sp d).1

theorem spComputed_sp (s : State) (f : Alu 16) (d : Word) :
    (s.spComputed f d).core.sp = 0xF#4 ++ (f s.core.psw s.core.sp d).1.extractLsb' 1 11 ++ 0#1 :=
  stackNorm_eq_append _

theorem spComputed_traps (s : State) (f : Alu 16) (d : Word) :
    (s.spComputed f d).core.tfr = s.core.tfr ∧ (s.spComputed f d).sys.treq = s.sys.treq ∧
      (s.spComputed f d).sys.deferred = s.sys.deferred := ⟨rfl, rfl, rfl⟩

theorem spChecked_sp (s : State) (c : SpCheck) : (s.spChecked c).core.sp = s.core.sp := by
  have hraise {p : Prop} [Decidable p] (m : Word) : (if p then s.raiseDeferred m else s).core.sp = s.core.sp := by
    split
    · rw [raiseDeferred_core]
      rfl
    · rfl
  cases c with
  | none => rfl
  | underflow => exact hraise tfrStkuf
  | overflow => exact hraise tfrStkof

section
variable {s : State} {q : Byte} (hq : isGprCode q = false) (hsp : s.regNum q = Sfr.sp)
include hq hsp

theorem regWord_sp : s.regWord q = some (s.core.sp, s) := by
  unfold State.regWord
  rw [hq, hsp, if_neg Bool.false_ne_true, if_pos (by decide)]
  rfl

theorem regWordStored_sp (v : Word) : s.regWordStored q v = some (s.writeSp v) := by
  have hpresent : Sfr.sp.present = true := by decide
  unfold State.regWordStored State.sfrStored
  rw [hq, hsp, hpresent, if_neg Bool.false_ne_true]
  rfl

theorem afterReg_sp (c : SpCheck) :
    s.afterReg q (some c) = (s.spChecked c).noteRmw Sfr.sp Sfr.sp.unprotected := by
  replace hsp : Sfr.ofReg s.sys.ext.esfr q = Sfr.sp := hsp
  show s.aluReg c q = _
  unfold State.aluReg State.regIsSp
  rw [hq, hsp]
  rfl

theorem aluRegImm_sp (f : Alu 16) (c : SpCheck) (d : Word) :
    aluRegImm wordW f c q d s =
      .ok ((), (((s.spComputed f d).spChecked c).noteRmw Sfr.sp Sfr.sp.unprotected).advance 4) := by
  rw [aluRegImm_done word_matches f c d (regWord_sp hq hsp) (regWordStored_sp (s := s.withFlags _) hq hsp _),
    afterReg_sp (s := (s.withFlags _).writeSp _) hq hsp c]
  rfl

end

/-- The note of a read-modify-write and the end of the instruction leave SP and the traps. -/
theorem advance_noteRmw_traps (s : State) (r : Sfr) (m : Word) (len : Nat) :
    let t := (s.noteRmw r m).advance len
    t.core.sp = s.core.sp ∧ t.core.tfr = s.core.tfr ∧ t.sys.treq = s.sys.treq ∧ t.sys.deferred = s.sys.deferred :=
  ⟨rfl, rfl, rfl, rfl⟩

/-- The claim of an instruction on SP, from what its check does: nothing within the limit, a deferred trap beyond it. -/
theorem spLimited_of_exec {f : Alu 16} {c : SpCheck} {i : Byte → Word → Instr} {flag : Word}
    {beyond : State → Word → Prop} (hi : ∀ q d s, exec (i q d) s = (aluRegImm wordW f c q d).toOutcome s)
    (hflag : flag ≠ 0) (hlimit : ∀ s d sp, beyond (s.spComputed f d) sp ↔ beyond s sp)
    (hin : ∀ s, ¬ beyond s s.core.sp → s.spChecked c = s)
    (hout : ∀ s, beyond s s.core.sp → s.spChecked c = s.raiseDeferred flag) : SpLimited f i flag beyond := by
  intro s q d hq hsp
  have hrun := (hi q d s).trans (Act.toOutcome_ok (aluRegImm_sp hq hsp f c d))
  obtain ⟨hkept, htfr, htreq, hdeferred⟩ :=
    advance_noteRmw_traps ((s.spComputed f d).spChecked c) Sfr.sp Sfr.sp.unprotected 4
  obtain ⟨htfrStart, htreqStart, hdeferredStart⟩ := spComputed_traps s f d
  dsimp only
  rw [← spComputed_sp s f d, ← hlimit s d, ← htfrStart, ← htreqStart, ← hdeferredStart]
  refine ⟨_, hrun, hkept.trans (spChecked_sp _ c), fun h => ?_, fun h => ⟨?_, fun hclear => ?_⟩⟩
  · rw [htfr, htreq, hdeferred, hin _ h]
    exact ⟨rfl, rfl, rfl⟩
  · rw [htfr, hout _ h, raiseDeferred_core]
    rfl
  · rw [htreq]
    rw [hout _ h] at hdeferred ⊢
    obtain ⟨hrequested, htwo⟩ := raiseDeferred_clear hflag hclear
    exact ⟨hrequested, settle_deferred (hdeferred.trans htwo) (i q d)⟩

/-- ADD and ADDC check SP against STKUN. -/
theorem spLimited_underflow {f : Alu 16} {i : Byte → Word → Instr}
    (hi : ∀ q d s, exec (i q d) s = (aluRegImm wordW f .underflow q d).toOutcome s) :
    SpLimited f i tfrStkuf (fun s sp => s.core.stkun < sp) :=
  spLimited_of_exec hi (by decide) (fun _ _ _ => Iff.rfl) (fun _ h => if_neg h) (fun _ h => if_pos h)

/-- SUB and SUBC check SP against STKOV. -/
theorem spLimited_overflow {f : Alu 16} {i : Byte → Word → Instr}
    (hi : ∀ q d s, exec (i q d) s = (aluRegImm wordW f .overflow q d).toOutcome s) :
    SpLimited f i tfrStkof (fun s sp => sp < s.core.stkov) :=
  spLimited_of_exec hi (by decide) (fun _ _ _ => Iff.rfl) (fun _ h => if_neg h) (fun _ h => if_pos h)

/-- Settles O9: each instruction is the form `aluRegImm` of its operation; on SP, the limit of its check. -/
theorem aluRegisterImmediate : Obligations.AluRegisterImmediate := by
  unfold Obligations.AluRegisterImmediate
  have word {f : Alu 16} {c : SpCheck} {i : Byte → Word → Instr} :=
    aluRegImm_of_exec word_matches (f := f) (c := c) (i := i)
  have byte {f : Alu 8} {c : SpCheck} {i : Byte → Byte → Instr} :=
    aluRegImm_of_exec byte_matches (f := f) (c := c) (i := i)
  exact ⟨word fun _ _ _ => rfl, byte fun _ _ _ => rfl, word fun _ _ _ => rfl, byte fun _ _ _ => rfl,
    word fun _ _ _ => rfl, byte fun _ _ _ => rfl, word fun _ _ _ => rfl, byte fun _ _ _ => rfl,
    word fun _ _ _ => rfl, byte fun _ _ _ => rfl, word fun _ _ _ => rfl, byte fun _ _ _ => rfl,
    word fun _ _ _ => rfl, byte fun _ _ _ => rfl,
    spLimited_underflow fun _ _ _ => rfl, spLimited_underflow fun _ _ _ => rfl,
    spLimited_overflow fun _ _ _ => rfl, spLimited_overflow fun _ _ _ => rfl⟩

end Sys2Proof.Machine

namespace Sys2Proof.Machine

/-! ## What a multiply or divide leaves (10_state.md R58, R59) -/

/-- The end of a multiply or divide: the flags are set, MDH and MDL written, IP moved. -/
theorem setMd_done (u : State) (f : Flags) (mdh mdl : Word) :
    ∃ t, (setFlags f >>= fun _ => setMd mdh mdl >>= fun _ => next 2) u = .ok ((), t) ∧ MdWritten u t mdh mdl f := by
  refine ⟨_, rfl, rfl, rfl, rfl, rfl, rfl, ?_, fun _ _ => rfl⟩
  exact State.blank_withFlags { u with core := { u.core with mdh := mdh, mdl := mdl, mdc := _ } } f

/-- What a division leaves: its quotient and remainder, or an overflow with free values (U19). -/
def DivWritten (u t : State) : Option (Word × Word) → Prop
  | some (q, r) => MdWritten u t r q { e := false, z := q == 0, v := false, c := false, n := q.msb }
  | none =>
    MdWritten u t (Config.freeWord .divRemainder u.free 0) (Config.freeWord .divQuotient u.free 0)
      { e := false, z := Config.freeBool .divFlags u.free 0, v := true, c := false,
        n := Config.freeBool .divFlags u.free 1 }

section
variable {s u : State} {op : MulOp} {rn rm : Gpr} (hb : s.bank = true)
include hb

/-- A multiplication whose operands are known leaves its product. -/
theorem multiply_done (f : Word → Word → BitVec 32 × Flags) (overflow : BitVec 32 → Bool)
    (hr : resumeFrame { op := op, rn := rn, rm := rm } (s.gpr rn) (s.gpr rm) s = .ok (true, u)) :
    ∃ t, multiply op f overflow rn rm s = .ok ((), t) ∧
      MdWritten u t ((f (s.gpr rn) (s.gpr rm)).1.extractLsb' 16 16) ((f (s.gpr rn) (s.gpr rm)).1.extractLsb' 0 16)
        (f (s.gpr rn) (s.gpr rm)).2 := by
  unfold multiply
  rw [Act.bind_ok (readGpr_run rn hb), Act.bind_ok (readGpr_run rm hb), Act.bind_ok hr]
  exact setMd_done u _ _ _

/-- A division whose operands are known leaves its quotient and remainder, or an overflow. -/
theorem divide_done (f : Division)
    (hr : resumeFrame { op := op, rn := rn, rm := rn } (s.gpr rn) (s.gpr rn) s = .ok (true, u)) :
    ∃ t, divide op f rn s = .ok ((), t) ∧ DivWritten u t (f u.core.mdh u.core.mdl (s.gpr rn)) := by
  unfold divide
  rw [Act.bind_ok (readGpr_run rn hb), Act.bind_ok hr, Act.look_bind, if_pos rfl]
  cases f u.core.mdh u.core.mdl (s.gpr rn) with
  | some qr => exact setMd_done u _ _ _
  | none => exact setMd_done u _ _ _

end

/-- The state in which an interrupted multiply or divide starts again: MDH and MDL are back, and its frame is used up
(R245). -/
def State.restarted (s : State) (f : MulFrame) : State :=
  { s with
    core := { s.core with mdh := f.mdh, mdl := f.mdl }
    sys := { s.sys with resume := false, suspended := s.sys.suspended.erase f } }

theorem resumeFrame_restarted {m : MulInstr} {a b : Word} {s : State} {f : MulFrame}
    (hf : s.suspendedFrame m a b = some f) : resumeFrame m a b s = .ok (true, s.restarted f) := by
  rw [resumeFrame_run, hf]
  rfl

/-! ## The products (40_arithmetic.md R229, R230) -/

/-- A product of two signed words fits in 32 bits. -/
theorem mulSigned_toInt (a b : Word) : (mulSigned a b).1.toInt = a.toInt * b.toInt := by
  have hbound : |a.toInt * b.toInt| ≤ 2 ^ 30 := by
    have ha : |a.toInt| ≤ 2 ^ 15 := abs_le.mpr ⟨a.le_toInt, a.toInt_lt.le⟩
    have hb : |b.toInt| ≤ 2 ^ 15 := abs_le.mpr ⟨b.le_toInt, b.toInt_lt.le⟩
    rw [abs_mul]
    exact mul_le_mul ha hb (abs_nonneg _) (by decide)
  obtain ⟨hlo, hhi⟩ := abs_le.mp hbound
  exact BitVec.toInt_ofInt_eq_self (by decide) (by omega) (by omega)

theorem mulSigned_flags (a b : Word) :
    (mulSigned a b).2 = { e := false, z := (mulSigned a b).1 == 0
                          v := decide ((mulSigned a b).1.toInt < -0x8000 ∨ 0x7FFF < (mulSigned a b).1.toInt)
                          c := false, n := (mulSigned a b).1.msb } := by
  rw [mulSigned_toInt, Bool.decide_or]
  rfl

/-- A product of two unsigned words fits in 32 bits. -/
theorem mulUnsigned_toNat (a b : Word) : (mulUnsigned a b).1.toNat = a.toNat * b.toNat :=
  Nat.mod_eq_of_lt (calc
    a.toNat * b.toNat < 2 ^ 16 * 2 ^ 16 := Nat.mul_lt_mul'' a.isLt b.isLt
    _ = 2 ^ 32 := by decide)

theorem mulUnsigned_flags (a b : Word) :
    (mulUnsigned a b).2 = { e := false, z := (mulUnsigned a b).1 == 0
                            v := decide (0xFFFF < (mulUnsigned a b).1.toNat)
                            c := false, n := (mulUnsigned a b).1.msb } := by
  rw [mulUnsigned_toNat]
  rfl

/-! ## The instructions -/

section
variable {s u : State} {rn rm : Gpr} (hb : s.bank = true)
include hb

theorem mul_exec (hr : resumeFrame { op := .mul, rn := rn, rm := rm } (s.gpr rn) (s.gpr rm) s = .ok (true, u)) :
    ∃ t p, exec (.mul rn rm) s = .next t ∧ BitVec.toInt (p : BitVec 32) = (s.gpr rn).toInt * (s.gpr rm).toInt ∧
      MdWritten u t (p.extractLsb' 16 16) (p.extractLsb' 0 16)
        { e := false, z := p == 0, v := decide (p.toInt < -0x8000 ∨ 0x7FFF < p.toInt), c := false, n := p.msb } := by
  obtain ⟨t, ht, hw⟩ := exec_of_run (i := .mul rn rm) rfl (multiply_done hb mulSigned signedOverflow hr)
  exact ⟨t, _, ht, mulSigned_toInt _ _, mulSigned_flags _ _ ▸ hw⟩

theorem mulu_exec (hr : resumeFrame { op := .mulu, rn := rn, rm := rm } (s.gpr rn) (s.gpr rm) s = .ok (true, u)) :
    ∃ t p, exec (.mulu rn rm) s = .next t ∧ BitVec.toNat (p : BitVec 32) = (s.gpr rn).toNat * (s.gpr rm).toNat ∧
      MdWritten u t (p.extractLsb' 16 16) (p.extractLsb' 0 16)
        { e := false, z := p == 0, v := decide (0xFFFF < p.toNat), c := false, n := p.msb } := by
  obtain ⟨t, ht, hw⟩ := exec_of_run (i := .mulu rn rm) rfl (multiply_done hb mulUnsigned unsignedOverflow hr)
  exact ⟨t, _, ht, mulUnsigned_toNat _ _, mulUnsigned_flags _ _ ▸ hw⟩

variable {op : MulOp} {f : Division} {i : Gpr → Instr}
  (hi : ∀ rn s, exec (i rn) s = (divide op f rn).toOutcome s)
include hi

/-- A division that resumes nothing. -/
theorem div_exec_fresh (hr : s.sys.resume = false)
    (hf : s.suspendedFrame { op := op, rn := rn, rm := rn } (s.gpr rn) (s.gpr rn) = none) :
    ∃ t, exec (i rn) s = .next t ∧ DivWritten s t (f s.core.mdh s.core.mdl (s.gpr rn)) :=
  exec_of_run (hi rn s) (divide_done hb f (resumeFrame_fresh hr hf))

/-- A division that was interrupted divides what MDH and MDL held when it first started. -/
theorem div_exec_resumed {m : MulFrame}
    (hf : s.suspendedFrame { op := op, rn := rn, rm := rn } (s.gpr rn) (s.gpr rn) = some m) :
    ∃ t, exec (i rn) s = .next t ∧ DivWritten (s.restarted m) t (f m.mdh m.mdl (s.gpr rn)) :=
  exec_of_run (hi rn s) (divide_done hb f (resumeFrame_restarted hf))

end

/-- Settles O15: nothing is resumed, so the multiplication starts with the registers as they are. -/
theorem multiply_product : Obligations.Multiply := by
  unfold Obligations.Multiply
  exact ⟨fun _ _ _ hb hr hf => mul_exec hb (resumeFrame_fresh hr hf),
    fun _ _ _ hb hr hf => mulu_exec hb (resumeFrame_fresh hr hf)⟩

/-- Settles O16: nothing is resumed, so the division starts with the registers as they are. -/
theorem divide_quotient : Obligations.Divide := by
  unfold Obligations.Divide
  exact ⟨fun _ _ hb hr hf => div_exec_fresh hb (i := .div) (fun _ _ => rfl) hr hf,
    fun _ _ hb hr hf => div_exec_fresh hb (i := .divu) (fun _ _ => rfl) hr hf,
    fun _ _ hb hr hf => div_exec_fresh hb (i := .divl) (fun _ _ => rfl) hr hf,
    fun _ _ hb hr hf => div_exec_fresh hb (i := .divlu) (fun _ _ => rfl) hr hf⟩

/-- Settles O17: the frame gives MDH and MDL back, and the instruction starts again from them. -/
theorem resumedMultiplyDivide : Obligations.ResumedMultiplyDivide := by
  unfold Obligations.ResumedMultiplyDivide
  exact ⟨fun _ _ _ _ hb hf => mul_exec hb (resumeFrame_restarted hf),
    fun _ _ _ _ hb hf => mulu_exec hb (resumeFrame_restarted hf),
    fun _ _ _ hb hf => div_exec_resumed hb (i := .div) (fun _ _ => rfl) hf,
    fun _ _ _ hb hf => div_exec_resumed hb (i := .divu) (fun _ _ => rfl) hf,
    fun _ _ _ hb hf => div_exec_resumed hb (i := .divl) (fun _ _ => rfl) hf,
    fun _ _ _ hb hf => div_exec_resumed hb (i := .divlu) (fun _ _ => rfl) hf⟩

end Sys2Proof.Machine

namespace Sys2Proof.Machine

/-! ## Compare and step (42_compare_loop.md R283 to R286) -/

/-- Only the state in which op2 has been read matters: both the comparison and the step of Rwn use its bank. -/
theorem cmpStep_of_exec {i : Instr} {s u : State} {rn : Gpr} {op2 : Act Word} {b d : Word} {len : Nat}
    (hi : exec i s = (cmpStepGpr rn op2 d len).toOutcome s) (hb : u.bank = true) (h2 : op2 s = .ok (b, u)) :
    CmpStep i s u rn b d len :=
  exec_of_run hi (cmpStepGpr_done d len hb h2)

/-- Data reads nothing, and a memory operand leaves the bank where it was. -/
theorem cmpLoop_of_exec {d : Word} {i4 : Gpr → BitVec 4 → Instr} {i16 iMem : Gpr → Word → Instr}
    (h4 : ∀ rn b s, exec (i4 rn b) s = (cmpStepGpr rn (pure (b.setWidth 16)) d 2).toOutcome s)
    (h16 : ∀ rn b s, exec (i16 rn b) s = (cmpStepGpr rn (pure b) d 4).toOutcome s)
    (hMem : ∀ rn mem s, exec (iMem rn mem) s = (cmpStepGpr rn (readMem mem) d 4).toOutcome s) :
    CmpLoop d i4 i16 iMem := by
  refine ⟨fun s rn b hb => ?data4, fun s rn b hb => ?data16, fun s rn mem b u hb hr => ?memory⟩
  case data4 => exact cmpStep_of_exec (h4 rn b s) hb rfl
  case data16 => exact cmpStep_of_exec (h16 rn b s) hb rfl
  case memory =>
    have hbank : u.bank = true := (word_matches.readBank hr).trans hb
    exact cmpStep_of_exec (hMem rn mem s) hbank (word_matches.readMem hr)

/-- Settles O13: each instruction is the form `cmpStepGpr` of its step and its operand. -/
theorem compareLoop : Obligations.CompareLoop := by
  unfold Obligations.CompareLoop
  exact ⟨cmpLoop_of_exec (fun _ _ _ => rfl) (fun _ _ _ => rfl) fun _ _ _ => rfl,
    cmpLoop_of_exec (fun _ _ _ => rfl) (fun _ _ _ => rfl) fun _ _ _ => rfl,
    cmpLoop_of_exec (fun _ _ _ => rfl) (fun _ _ _ => rfl) fun _ _ _ => rfl,
    cmpLoop_of_exec (fun _ _ _ => rfl) (fun _ _ _ => rfl) fun _ _ _ => rfl⟩

end Sys2Proof.Machine

namespace Sys2Proof.Machine

/-! ## Boolean bit manipulation (43_bit.md R300 to R311) -/

/-- The write-back alone decides the end of a bit assignment: the word it needs was read before the flags were set. -/
theorem bitAssigned_of_exec {v : Bool} {i : Byte → BitVec 4 → Instr}
    (hi : ∀ b q s, exec (i b q) s = (bitAssign b q v).toOutcome s) : BitAssigned v i :=
  fun s b q _ _ hread => bitDone_of (hi b q s) fun _ hstored => bitAssign_done q v hread hstored

/-- The same for a field, whose mask and data `at_` places in the low or the high byte (R301, R302). -/
theorem bitField_of_exec {at_ : Byte → Word} {i : Byte → Byte → Byte → Instr}
    (hi : ∀ b mask d s, exec (i b mask d) s = (bitField b (at_ mask) (at_ d)).toOutcome s) : BitField at_ i :=
  fun s b mask d _ _ hread =>
    bitDone_of (hi b mask d s) fun _ hstored => bitField_done (at_ mask) (at_ d) hread hstored

/-- BCMP reads both bits and ends with their flags (R310). -/
theorem bcmp_exec {s r u : State} {bz bq : Byte} {z q : BitVec 4} {ws wd : Word} (hq : s.bitWord bq = some (ws, r))
    (hz : (if bz = bq then some (ws, r) else r.bitWord bz) = some (wd, u)) :
    ∃ t, exec (.bcmp bz z bq q) s = .next t ∧
      FlagsWritten u t (bitPairFlags (wbit wd z.toNat) (wbit ws q.toNat)) 4 :=
  completes_run rfl (bitPair_cmp_run hq hz) (flagsWritten_advance u _ 4)

/-- Settles O23: each instruction is the form `bitAssign` of its bit. -/
theorem bitSetAndClear : Obligations.BitSetAndClear := by
  unfold Obligations.BitSetAndClear
  exact ⟨bitAssigned_of_exec fun _ _ _ => rfl, bitAssigned_of_exec fun _ _ _ => rfl⟩

/-- Settles O24: each instruction is the form `bitPair` of its flags and its new bit; BCMP has no new bit. -/
theorem bitToBit : Obligations.BitToBit := by
  unfold Obligations.BitToBit
  refine ⟨?bmov, ?bmovn, ?band, ?bor, ?bxor, ?bcmp⟩
  case bcmp => exact fun _ _ _ _ _ _ _ _ _ hq hz => bcmp_exec hq hz
  all_goals exact bitPair_done fun _ _ _ _ _ => rfl

/-- Settles O25: each instruction is the form `bitField` of its byte. -/
theorem bitFields : Obligations.BitFields := by
  unfold Obligations.BitFields
  exact ⟨bitField_of_exec fun _ _ _ _ => rfl, bitField_of_exec fun _ _ _ _ => rfl⟩

end Sys2Proof.Machine

namespace Sys2Proof.Machine

/-! ## What the shifts and rotates compute (44_shift_prior.md R330 to R335) -/

/-- A number has a 1 among its low `m` bits exactly where they do not make up 0. -/
theorem mod_two_pow_ne_zero_iff (n m : Nat) : n % 2 ^ m ≠ 0 ↔ ∃ j, j < m ∧ n.testBit j = true := by
  constructor
  · intro h
    obtain ⟨j, hj⟩ := Nat.exists_testBit_of_ne_zero h
    rw [Nat.testBit_mod_two_pow, Bool.and_eq_true, decide_eq_true_eq] at hj
    exact ⟨j, hj⟩
  · rintro ⟨j, hlt, hj⟩ hzero
    have hbit : (n % 2 ^ m).testBit j = true := by simp [hlt, hj]
    rw [hzero, Nat.zero_testBit] at hbit
    exact Bool.false_ne_true hbit

section
variable (a r : Word) {k : Nat}

theorem rightFlags_v : (rightFlags a k r).v = true ↔ ∃ j, j + 1 < k ∧ a.getLsbD j = true := by
  have hlow := mod_two_pow_ne_zero_iff a.toNat (k - 1)
  simp only [rightFlags, Bool.and_eq_true, decide_eq_true_eq, hlow]
  constructor
  · rintro ⟨-, j, hj, hbit⟩
    exact ⟨j, by omega, hbit⟩
  · rintro ⟨j, hj, hbit⟩
    exact ⟨by omega, j, by omega, hbit⟩

theorem rightFlags_c : (rightFlags a k r).c = true ↔ 0 < k ∧ a.getLsbD (k - 1) = true := by
  simp [rightFlags, wbit, Nat.one_le_iff_ne_zero, Nat.pos_iff_ne_zero]

theorem leftFlags_c : (leftFlags a k r).c = true ↔ 0 < k ∧ a.getLsbD (16 - k) = true := by
  simp [leftFlags, wbit, Nat.one_le_iff_ne_zero, Nat.pos_iff_ne_zero]

end

/-- E, Z and N depend on the result alone; C and V on the operand and the count. -/
theorem rightMeans_of {f : Shift} (hf : ∀ a k, (f a k).2 = rightFlags a k (f a k).1) : RightMeans f := by
  intro a k _
  rw [hf]
  exact ⟨rightFlags_c a _, rightFlags_v a _, rfl, beq_iff_eq, BitVec.msb_eq_getLsbD_last (f a k).1⟩

theorem leftMeans_of {f : Shift} (hf : ∀ a k, (f a k).2 = leftFlags a k (f a k).1) : LeftMeans f := by
  intro a k _
  rw [hf]
  exact ⟨leftFlags_c a _, rfl, rfl, beq_iff_eq, BitVec.msb_eq_getLsbD_last (f a k).1⟩

section
variable (a : Word) {k i : Nat} (hk : k < 16) (hi : i < 16)

theorem shiftShr_bit : (shiftShr a k).1.getLsbD i = a.getLsbD (i + k) := by
  rw [shiftShr, BitVec.getLsbD_ushiftRight, Nat.add_comm]

include hi

theorem shiftShl_bit : (shiftShl a k).1.getLsbD i = (decide (k ≤ i) && a.getLsbD (i - k)) := by
  rw [shiftShl, BitVec.getLsbD_shiftLeft, decide_eq_true hi, Bool.true_and, ← decide_not]
  simp only [Nat.not_lt]

/-- Past bit 15 the sign is shifted in. -/
theorem shiftAshr_bit : (shiftAshr a k).1.getLsbD i = a.getLsbD (min (i + k) 15) := by
  rw [shiftAshr, BitVec.getLsbD_sshiftRight, decide_eq_false (Nat.not_le.mpr hi), Bool.not_false, Bool.true_and]
  split
  · next hinside => rw [show min (i + k) 15 = k + i by omega]
  · next hpast => rw [show min (i + k) 15 = 15 by omega, BitVec.msb_eq_getLsbD_last]

include hk

/-- The ring is closed over 16 bits: a bit from past bit 15 comes from the low end. -/
theorem shiftRor_bit : (shiftRor a k).1.getLsbD i = a.getLsbD ((i + k) % 16) := by
  rw [shiftRor, BitVec.getLsbD_rotateRight_of_lt hk, decide_eq_true hi, Bool.true_and]
  by_cases hinside : i < 16 - k
  · rw [decide_eq_true hinside, cond_true, show (i + k) % 16 = k + i by omega]
  · rw [decide_eq_false hinside, cond_false, show (i + k) % 16 = i - (16 - k) by omega]

theorem shiftRol_bit : (shiftRol a k).1.getLsbD i = a.getLsbD ((i + 16 - k) % 16) := by
  rw [shiftRol, BitVec.getLsbD_rotateLeft_of_le hk, decide_eq_true hi, Bool.true_and]
  by_cases hwrapped : i < k
  · rw [decide_eq_true hwrapped, cond_true, show (i + 16 - k) % 16 = 16 - k + i by omega]
  · rw [decide_eq_false hwrapped, cond_false, show (i + 16 - k) % 16 = i - k by omega]

end

/-- Settles O4: the flags from the two flag functions, and each bit from the rule of its shift. -/
theorem shiftResults : Obligations.ShiftResults := by
  unfold Obligations.ShiftResults
  refine ⟨rightMeans_of fun _ _ => rfl, rightMeans_of fun _ _ => rfl, rightMeans_of fun _ _ => rfl,
    leftMeans_of fun _ _ => rfl, leftMeans_of fun _ _ => rfl, fun a k i hk hi => ?bits⟩
  case bits =>
    exact ⟨shiftShr_bit a, shiftShl_bit a hi, shiftRor_bit a hk hi, shiftRol_bit a hk hi, shiftAshr_bit a hi⟩

/-! ## PRIOR (R336) -/

/-- Where there is a 1 among the low `n` bits, the zeros counted are those above the highest one. -/
theorem leadingZeros_highest {b : Word} {n : Nat} (h : ∃ j, j < n ∧ b.getLsbD j = true) :
    leadingZeros b n < n ∧ b.getLsbD (n - 1 - leadingZeros b n) = true ∧
      ∀ j, j < n → n - 1 - leadingZeros b n < j → b.getLsbD j = false := by
  induction n with
  | zero =>
    obtain ⟨j, hj, -⟩ := h
    exact absurd hj (Nat.not_lt_zero j)
  | succ n ih =>
    unfold leadingZeros
    split
    · next htop => exact ⟨Nat.succ_pos n, htop, fun j hj habove => by omega⟩
    · next htop =>
      replace htop : b.getLsbD n = false := Bool.eq_false_iff.mpr htop
      have hbelow : ∃ j, j < n ∧ b.getLsbD j = true := by
        obtain ⟨j, hj, hbit⟩ := h
        have hne : j ≠ n := by rintro rfl; rw [htop] at hbit; cases hbit
        exact ⟨j, by omega, hbit⟩
      obtain ⟨hlt, hbit, hzero⟩ := ih hbelow
      rw [show n + 1 - 1 - (leadingZeros b n + 1) = n - 1 - leadingZeros b n by omega]
      refine ⟨by omega, hbit, fun j hj habove => ?_⟩
      by_cases hjn : j = n
      · rw [hjn, htop]
      · exact hzero j (by omega) habove

theorem exists_getLsbD_of_ne_zero {b : Word} (h : b ≠ 0) : ∃ j, j < 16 ∧ b.getLsbD j = true := by
  by_contra hnone
  push Not at hnone
  refine h (BitVec.eq_of_getLsbD_eq fun j hj => ?_)
  rw [Bool.eq_false_iff.mpr (hnone j hj)]
  exact BitVec.getLsbD_zero.symm

theorem priorOf_zero : (priorOf 0).1 = 0 := rfl

theorem priorOf_toNat {b : Word} (h : b ≠ 0) : (priorOf b).1.toNat = leadingZeros b 16 := by
  obtain ⟨hlt, -, -⟩ := leadingZeros_highest (exists_getLsbD_of_ne_zero h)
  rw [priorOf, if_neg h, BitVec.toNat_ofNat]
  exact Nat.mod_eq_of_lt (by omega)

/-- The distance of the highest 1 from bit 15. -/
theorem priorOf_highest {b : Word} (h : b ≠ 0) :
    (priorOf b).1.toNat < 16 ∧ b.getLsbD (15 - (priorOf b).1.toNat) = true ∧
      ∀ j, 15 - (priorOf b).1.toNat < j → b.getLsbD j = false := by
  obtain ⟨hlt, hbit, hzero⟩ := leadingZeros_highest (exists_getLsbD_of_ne_zero h)
  rw [priorOf_toNat h]
  refine ⟨hlt, hbit, fun j habove => ?_⟩
  by_cases hj : j < 16
  · exact hzero j hj habove
  · exact BitVec.getLsbD_of_ge _ _ (Nat.le_of_not_lt hj)

/-- Rwm is read before Rwn is written, so the two may be one register. -/
theorem prior_exec {s : State} (rn rm : Gpr) (hb : s.bank = true) :
    ∃ t, exec (.prior rn rm) s = .next t ∧
      WordWritten s t (s.gprAt rn) (priorOf (s.gpr rm)).1 (priorOf (s.gpr rm)).2 2 := by
  refine completes_run rfl ?_ (wordWritten_store _ _ _ _ _)
  rw [Act.bind_ok (readGpr_run rm hb), Act.bind_ok (setFlags_run _ _),
    Act.bind_ok (writeGpr_run rn _ (flags_bank hb))]
  rfl

/-! ## The shift instructions -/

/-- Both sources of the count end in the same form: the low four bits of Rwm are its value modulo 16. -/
theorem shifts_of_exec {f : Shift} {iR : Gpr → Gpr → Instr} {i4 : Gpr → BitVec 4 → Instr}
    (hR : ∀ rn rm s, exec (iR rn rm) s = (shiftGpr f rn (shiftCount rm)).toOutcome s)
    (h4 : ∀ rn d s, exec (i4 rn d) s = (shiftGpr f rn (pure d)).toOutcome s) : Shifts f iR i4 := by
  refine ⟨fun s rn rm hb => ?register, fun s rn d hb => ?data⟩
  case register =>
    have hcount : ((s.gpr rm).extractLsb' 0 4).toNat = (s.gpr rm).toNat % 16 := by simp
    rw [← hcount]
    exact exec_of_run (hR rn rm s) (shiftGpr_done f rn hb (shiftCount_run rm hb))
  case data => exact exec_of_run (h4 rn d s) (shiftGpr_done f rn hb rfl)

/-- Settles O18: each shift is the form `shiftGpr` of its function; PRIOR has its own computation. -/
theorem shiftInstructions : Obligations.ShiftInstructions := by
  unfold Obligations.ShiftInstructions
  refine ⟨shifts_of_exec (fun _ _ _ => rfl) fun _ _ _ => rfl, shifts_of_exec (fun _ _ _ => rfl) fun _ _ _ => rfl,
    shifts_of_exec (fun _ _ _ => rfl) fun _ _ _ => rfl, shifts_of_exec (fun _ _ _ => rfl) fun _ _ _ => rfl,
    shifts_of_exec (fun _ _ _ => rfl) fun _ _ _ => rfl, fun s rn rm hb => ?prior⟩
  case prior =>
    obtain ⟨t, hexec, hwritten⟩ := prior_exec rn rm hb
    refine ⟨t, (priorOf (s.gpr rm)).1.toNat, hexec, ?_, fun hzero => ?_, priorOf_highest⟩
    · rw [BitVec.ofNat_toNat, BitVec.setWidth_eq]
      exact hwritten
    · rw [hzero, priorOf_zero]
      rfl

end Sys2Proof.Machine

namespace Sys2Proof.Machine

/-! ## The shapes of a move (45_data_movement.md R350) -/

theorem baseOffset_run {s : State} (rm : Gpr) (d : Word) (hb : s.bank = true) :
    baseOffset rm d s = .ok (s.gpr rm + d, s) := by
  unfold baseOffset
  rw [Act.bind_ok (readGpr_run rm hb)]
  rfl

section
variable {w : Nat} {W : Width w} {V : View w}

theorem movRX_eq_movPlain (rn rm : Gpr) (d : Word) :
    movRX W rn rm d = movPlain (baseOffset rm d >>= W.readMem) (W.writeGpr rn) 4 := rfl

theorem movXR_eq_movPlain (rm : Gpr) (d : Word) (rn : Gpr) :
    movXR W rm d rn = movPlain (W.readGpr rn) (fun v => baseOffset rm d >>= fun a => W.writeMem a v) 4 := rfl

variable (M : Matches W V) {src : Act (BitVec w)} {i : Instr} {s u : State} {v : BitVec w} {len : Nat}
include M

theorem readBaseOffset_at {rm : Gpr} {d : Word} (hb : s.bank = true) (hr : V.readAt s (s.gpr rm + d) = some (v, u)) :
    (baseOffset rm d >>= W.readMem) s = .ok (v, u) := by
  rw [Act.bind_ok (baseOffset_run rm d hb)]
  exact M.readMem hr

/-- The address is computed after the flags are set, which leave the pointer as it was. -/
theorem writeBaseOffset_at {t : State} {f : Flags} {rm : Gpr} {d : Word} (hb : s.bank = true)
    (ht : V.stored (s.withFlags f) (s.gpr rm + d) v = some t) :
    (baseOffset rm d >>= fun a => W.writeMem a v) (s.withFlags f) = .ok ((), t) := by
  rw [Act.bind_ok (baseOffset_run rm d (flags_bank hb))]
  exact M.writeMem ht

/-- A move to a `reg` operand: nothing follows its write. -/
theorem movPlain_regDone {q : Byte} (hi : exec i s = (movPlain src (W.writeReg q) len).toOutcome s)
    (hsrc : src s = .ok (v, u)) : RegDone V i s u q v (moveFlags u.core.psw v) none len :=
  regDone_of M hi fun _ ht => movPlain_done hsrc (M.writeReg ht) len

/-- A move to memory, whatever computes the address: nothing follows its write. -/
theorem movPlain_memDone (P : V.Plain) {wr : BitVec w → Act Unit} {a : Word}
    (hi : exec i s = (movPlain src wr len).toOutcome s) (hsrc : src s = .ok (v, u))
    (hwr : ∀ t, V.stored (u.withFlags (moveFlags u.core.psw v)) a v = some t →
      wr v (u.withFlags (moveFlags u.core.psw v)) = .ok ((), t)) :
    MemDone V i s u a v (moveFlags u.core.psw v) none len :=
  memDone_of M (fun _ _ _ => P.writable) hi fun t ht => movPlain_done hsrc (hwr t ht) len

end

/-! ## Moves to a register -/

section
variable {w : Nat} {W : Width w} {V : View w} (M : Matches W V)
include M

theorem movRR_of_exec {i : Gpr → Gpr → Instr}
    (hi : ∀ rn rm s, exec (i rn rm) s = (movPlain (W.readGpr rm) (W.writeGpr rn) 2).toOutcome s) : MovRR V i :=
  fun s rn rm hb => exec_of_run (hi rn rm s) (movGpr_done M 2 (M.readGpr rm hb) hb)

theorem movR4_of_exec {i : Gpr → BitVec 4 → Instr}
    (hi : ∀ rn d s, exec (i rn d) s = (movPlain (pure (d.setWidth w)) (W.writeGpr rn) 2).toOutcome s) : MovR4 V i :=
  fun s rn d hb => exec_of_run (hi rn d s) (movGpr_done M 2 (Act.pure_run _ s) hb)

theorem movRegImm_of_exec {i : Byte → BitVec w → Instr}
    (hi : ∀ q d s, exec (i q d) s = (movPlain (pure d) (W.writeReg q) 4).toOutcome s) : MovRegImm V i :=
  fun s q d => movPlain_regDone M (hi q d s) (Act.pure_run d s)

theorem movRI_of_exec {i : Gpr → Gpr → Instr}
    (hi : ∀ rn rm s, exec (i rn rm) s = (movPlain (readIndirect W rm) (W.writeGpr rn) 2).toOutcome s) : MovRI V i :=
  fun s rn rm _ _ hb hr => exec_of_run (hi rn rm s)
    (movGpr_done M 2 (readIndirect_at M hb hr) ((M.readBank hr).trans hb))

theorem movRX_of_exec {i : Gpr → Gpr → Word → Instr}
    (hi : ∀ rn rm d s, exec (i rn rm d) s = (movRX W rn rm d).toOutcome s) : MovRX V i := by
  intro s rn rm d v u hb hr
  have hrun := hi rn rm d s
  rw [movRX_eq_movPlain] at hrun
  exact exec_of_run hrun (movGpr_done M 4 (readBaseOffset_at M hb hr) ((M.readBank hr).trans hb))

theorem movRegMem_of_exec {i : Byte → Word → Instr}
    (hi : ∀ q m s, exec (i q m) s = (movPlain (W.readMem m) (W.writeReg q) 4).toOutcome s) : MovRegMem V i :=
  fun s q m _ _ hm => movPlain_regDone M (hi q m s) (M.readMem hm)

end

/-- Settles O19: each instruction is a move from the source of its form to its register. -/
theorem moveToRegister : Obligations.MoveToRegister := by
  unfold Obligations.MoveToRegister
  exact ⟨movRR_of_exec word_matches fun _ _ _ => rfl, movRR_of_exec byte_matches fun _ _ _ => rfl,
    movR4_of_exec word_matches fun _ _ _ => rfl, movR4_of_exec byte_matches fun _ _ _ => rfl,
    movRegImm_of_exec word_matches fun _ _ _ => rfl, movRegImm_of_exec byte_matches fun _ _ _ => rfl,
    movRI_of_exec word_matches fun _ _ _ => rfl, movRI_of_exec byte_matches fun _ _ _ => rfl,
    movRX_of_exec word_matches fun _ _ _ _ => rfl, movRX_of_exec byte_matches fun _ _ _ _ => rfl,
    movRegMem_of_exec word_matches fun _ _ _ => rfl, movRegMem_of_exec byte_matches fun _ _ _ => rfl⟩

/-! ## Moves to memory -/

section
variable {w : Nat} {W : Width w} {V : View w} (M : Matches W V) (P : V.Plain)
include M P

theorem movIR_of_exec {i : Gpr → Gpr → Instr}
    (hi : ∀ rm rn s, exec (i rm rn) s = (movPlain (W.readGpr rn) (writeIndirect W rm) 2).toOutcome s) : MovIR V i :=
  fun s rm rn hb => movPlain_memDone M P (hi rm rn s) (M.readGpr rn hb) fun _ ht => writeIndirect_at M rfl hb ht

theorem movII_of_exec {i : Gpr → Gpr → Instr}
    (hi : ∀ rn rm s, exec (i rn rm) s = (movPlain (readIndirect W rm) (writeIndirect W rn) 2).toOutcome s) :
    MovII V i :=
  fun s rn rm _ _ hb hr => movPlain_memDone M P (hi rn rm s) (readIndirect_at M hb hr)
    fun _ ht => writeIndirect_at M rfl ((M.readBank hr).trans hb) ht

theorem movXR_of_exec {i : Gpr → Word → Gpr → Instr}
    (hi : ∀ rm d rn s, exec (i rm d rn) s = (movXR W rm d rn).toOutcome s) : MovXR V i := by
  intro s rm d rn hb
  have hrun := hi rm d rn s
  rw [movXR_eq_movPlain] at hrun
  exact movPlain_memDone M P hrun (M.readGpr rn hb) fun _ ht => writeBaseOffset_at M hb ht

theorem movIMem_of_exec {i : Gpr → Word → Instr}
    (hi : ∀ rn m s, exec (i rn m) s = (movPlain (W.readMem m) (writeIndirect W rn) 4).toOutcome s) : MovIMem V i :=
  fun s rn m _ _ hb hr => movPlain_memDone M P (hi rn m s) (M.readMem hr)
    fun _ ht => writeIndirect_at M rfl ((M.readBank hr).trans hb) ht

theorem movMemI_of_exec {i : Word → Gpr → Instr}
    (hi : ∀ m rn s, exec (i m rn) s = (movPlain (readIndirect W rn) (W.writeMem m) 4).toOutcome s) : MovMemI V i :=
  fun s m rn _ _ hb hr => movPlain_memDone M P (hi m rn s) (readIndirect_at M hb hr) fun _ ht => M.writeMem ht

theorem movMemReg_of_exec {i : Word → Byte → Instr}
    (hi : ∀ m q s, exec (i m q) s = (movPlain (W.readReg q) (W.writeMem m) 4).toOutcome s) : MovMemReg V i :=
  fun s m q _ _ hq => movPlain_memDone M P (hi m q s) (M.readReg hq) fun _ ht => M.writeMem ht

end

/-- Settles O21: each instruction is a move from the source of its form to the address of its destination. -/
theorem moveToMemory : Obligations.MoveToMemory := by
  unfold Obligations.MoveToMemory
  exact ⟨movIR_of_exec word_matches wordView_plain fun _ _ _ => rfl,
    movIR_of_exec byte_matches byteView_plain fun _ _ _ => rfl,
    movII_of_exec word_matches wordView_plain fun _ _ _ => rfl,
    movII_of_exec byte_matches byteView_plain fun _ _ _ => rfl,
    movXR_of_exec word_matches wordView_plain fun _ _ _ _ => rfl,
    movXR_of_exec byte_matches byteView_plain fun _ _ _ _ => rfl,
    movIMem_of_exec word_matches wordView_plain fun _ _ _ => rfl,
    movIMem_of_exec byte_matches byteView_plain fun _ _ _ => rfl,
    movMemI_of_exec word_matches wordView_plain fun _ _ _ => rfl,
    movMemI_of_exec byte_matches byteView_plain fun _ _ _ => rfl,
    movMemReg_of_exec word_matches wordView_plain fun _ _ _ => rfl,
    movMemReg_of_exec byte_matches byteView_plain fun _ _ _ => rfl⟩

/-! ## Moves that extend a byte (R353, R354) -/

/-- Both extensions run alike: a byte source, the flags of the byte, a word destination. -/
theorem movExtend_of_exec (signed : Bool) {iRR : Gpr → Gpr → Instr} {iRegMem : Byte → Word → Instr}
    {iMemReg : Word → Byte → Instr}
    (hRR : ∀ rn rm s, exec (iRR rn rm) s = (moveExtend signed (readGprB rm) (writeGpr rn) 2).toOutcome s)
    (hRegMem : ∀ q m s, exec (iRegMem q m) s = (moveExtend signed (readMemB m) (writeReg q) 4).toOutcome s)
    (hMemReg : ∀ m q s, exec (iMemReg m q) s = (moveExtend signed (readRegB q) (writeMem m) 4).toOutcome s) :
    MovExtend (fun b => if signed then b.signExtend 16 else b.setWidth 16)
      (fun psw b => if signed then moveSignFlags psw b else moveZeroFlags psw b) iRR iRegMem iMemReg := by
  refine ⟨fun s rn rm hb => ?gpr, fun s q m b u hm => ?register, fun s m q b u hq => ?memory⟩
  case gpr =>
    have hrun := moveExtend_done (signed := signed) 2 (readGprB_run rm hb) (writeGpr_run rn _ (flags_bank hb))
    exact completes_run (hRR rn rm s) hrun (wordWritten_store _ _ _ _ _)
  case register =>
    exact regDone_of word_matches (hRegMem q m s) fun t ht =>
      moveExtend_done 4 (byte_matches.readMem hm) (word_matches.writeReg ht)
  case memory =>
    exact memDone_of word_matches (fun _ _ _ => wordView_plain.writable) (hMemReg m q s) fun t ht =>
      moveExtend_done 4 (byte_matches.readReg hq) (word_matches.writeMem ht)

/-- Settles O22: MOVBS is the signed and MOVBZ the unsigned extension of `moveExtend`. -/
theorem moveExtended : Obligations.MoveExtended := by
  unfold Obligations.MoveExtended
  exact ⟨movExtend_of_exec true (fun _ _ _ => rfl) (fun _ _ _ => rfl) fun _ _ _ => rfl,
    movExtend_of_exec false (fun _ _ _ => rfl) (fun _ _ _ => rfl) fun _ _ _ => rfl⟩

end Sys2Proof.Machine

namespace Sys2Proof.Machine

/-! ## PUSH, POP and SCXT (46_stack.md R392 to R394) -/

@[simp] theorem setMoveFlags_run {w : Nat} (v : BitVec w) (s : State) :
    setMoveFlags v s = .ok ((), s.withFlags (moveFlags s.core.psw v)) := rfl

/-- Flags that are written back leave the machine as it was. -/
theorem State.withFlags_flagsOf (s : State) : s.withFlags (flagsOf s.core.psw) = s := by
  unfold State.withFlags
  rw [withFlags_self]

theorem pushed_flagsOf (s : State) (k : Nat) (v : Word) :
    (s.pushed k v).withFlags (flagsOf s.core.psw) = s.pushed k v := by
  rw [← pushed_psw s k v]
  exact State.withFlags_flagsOf _

/-- `even` is the test of SCXT, negated. -/
theorem odd_eq_not_even (s : State) (a : Word) : decide ((s.dataAddr a).toNat % 2 = 1) = !s.even a := by
  rw [State.even, ← decide_not, decide_eq_decide]
  omega

/-- PUSH reads its operand, pushes it, and takes the flags from it; the push leaves PSW alone. -/
theorem execPush_done {s u : State} {q : Byte} {v : Word} {k : Nat} (hq : s.regWord q = some (v, u))
    (hk : u.stackAt u.spDown = some k) :
    ∃ t, exec (.push q) s = .next t ∧ FlagsWritten (u.pushed k v) t (moveFlags u.core.psw v) 2 := by
  refine completes_run rfl ?_ (flagsWritten_advance (u.pushed k v) _ 2)
  rw [Act.bind_ok (readReg_at hq), Act.bind_ok (push_run v hk), Act.bind_ok (setMoveFlags_run v _), pushed_psw]
  rfl

/-- POP is a move from the stack word; the pop leaves PSW alone. -/
theorem execPop_done {s : State} {k : Nat} (q : Byte) (hk : s.stackAt s.effSp = some k) :
    RegDone wordView (.pop q) s s.popped q (s.mem.getWord k) (moveFlags s.core.psw (s.mem.getWord k)) none 2 := by
  obtain ⟨-, -, -, hpsw, -⟩ := popped_facts s
  refine regDone_of word_matches rfl fun t ht => ?_
  rw [Act.bind_ok (pop_run hk), Act.bind_ok (setMoveFlags_run _ _), hpsw, Act.bind_ok (writeReg_at ht)]
  rfl

/-- The end of both forms of SCXT, behind the reads of its operands: the old value is pushed, the new one written, and
the flags stay. -/
theorem exchange_done {act : Act Unit} {i : Instr} {s u : State} {k : Nat} {q : Byte} {old new : Word}
    (hi : exec i s = act.toOutcome s)
    (hreads : act s = (push old >>= fun _ => writeReg q new >>= fun _ => next 4) u)
    (hk : u.stackAt u.spDown = some k) :
    RegDone wordView i s (u.pushed k old) q new (flagsOf u.core.psw) none 4 := by
  refine regDone_of word_matches hi fun t ht => ?_
  rw [pushed_flagsOf] at ht
  rw [hreads, Act.bind_ok (push_run old hk), Act.bind_ok (writeReg_at ht)]
  rfl

theorem execScxtRegImm_done {s u : State} {q : Byte} {d v : Word} {k : Nat} (hq : s.regWord q = some (v, u))
    (hk : u.stackAt u.spDown = some k) :
    RegDone wordView (.scxtRegImm q d) s (u.pushed k v) q d (flagsOf u.core.psw) none 4 :=
  exchange_done rfl (Act.bind_ok (readReg_at hq) _) hk

theorem execScxtRegMem_done {s r u : State} {q : Byte} {mem v d : Word} {k : Nat} (heven : s.even mem = true)
    (hq : s.regWord q = some (v, r)) (hm : r.wordAt mem = some (d, u)) (hk : u.stackAt u.spDown = some k) :
    RegDone wordView (.scxtRegMem q mem) s (u.pushed k v) q d (flagsOf u.core.psw) none 4 := by
  refine exchange_done rfl ?_ hk
  rw [Act.look_bind, odd_eq_not_even, heven, Act.ite_run, if_neg (by decide), Act.bind_ok (readReg_at hq),
    Act.bind_ok (readMem_at hm)]

/-- At an odd address neither operand is read (log 26). -/
theorem execScxtRegMem_odd {s : State} {q : Byte} {mem : Word} (hodd : s.even mem = false) :
    exec (.scxtRegMem q mem) s = .next ((s.raise tfrIllopa).advance 4) := by
  refine Act.toOutcome_ok ?_
  rw [Act.look_bind, odd_eq_not_even, hodd, Act.ite_run, if_pos (by decide)]
  rfl

/-- Settles O34: each instruction runs to the state of its push or pop, with its operand written and its flags set. -/
theorem stackInstructions : Obligations.StackInstructions := by
  unfold Obligations.StackInstructions
  exact ⟨fun _ _ _ _ _ hq hk => execPush_done hq hk, fun _ q _ hk => execPop_done q hk,
    fun _ _ _ _ _ _ hq hk => execScxtRegImm_done hq hk,
    fun _ _ _ _ _ _ _ _ heven hq hm hk => execScxtRegMem_done heven hq hm hk,
    fun _ _ _ hodd => execScxtRegMem_odd hodd⟩

end Sys2Proof.Machine

namespace Sys2Proof.Machine

/-! ## Jumps (47_jump.md R400 to R404) -/

theorem branched_jump (s : State) (ip : Word) : Branched s (s.branch ip) s.core.csp ip :=
  branched_branch ip rfl rfl rfl rfl rfl rfl

/-- An absolute branch ends the use of old mappings, which belongs to what the fetch remembers. -/
theorem branched_of_reached {s t : State} {a ip : Word} {csp : Byte} (h : Branched (s.reached a) t csp ip) :
    Branched s t csp ip := h

/-- The displacement of a relative jump counts words from its end (R403, R406). -/
theorem branched_relative (s : State) (len : Nat) (rel : Byte) :
    Branched s ((s.fillCache (s.relTarget len rel)).branch (s.relTarget len rel)) s.core.csp
      (s.core.ip + BitVec.ofNat 16 len + BitVec.ofInt 16 (2 * rel.toInt)) := by
  rw [← relTarget_eq]
  exact branched_cacheJump s _

section
variable {i : Instr} {s : State} {cc : Cc} {go : Act Unit} {len : Nat}
  (hi : exec i s = (look (fun s => s.holds cc) >>= fun c => if c then go else next len).toOutcome s)
include hi

/-- An instruction under a condition that holds runs its body. -/
theorem conditional_taken {t : State} {P : State → Prop} (hc : s.holds cc = true) (hgo : go s = .ok ((), t)) (ht : P t) :
    ∃ t, exec i s = .next t ∧ P t := by
  refine completes_run hi ?_ ht
  rw [Act.look_bind, Act.ite_run, if_pos hc, hgo]

/-- Under one that does not hold it only advances. -/
theorem conditional_passed (hc : s.holds cc = false) : ∃ t, exec i s = .next t ∧ Passed s t len := by
  refine completes_run hi ?_ (passed_advance s len)
  rw [Act.look_bind, Act.ite_run, hc, if_neg Bool.false_ne_true, next_run]

end

theorem jmpa_taken {s : State} {cc : Cc} (a : Word) (hc : s.holds cc = true) :
    ∃ t, exec (.jmpa cc a) s = .next t ∧ Branched s t s.core.csp a := by
  have hgo : (absolute a >>= fun _ => cacheJump a) s = .ok ((), ((s.reached a).fillCache a).branch a) := by
    rw [absolute, Act.change_bind, cacheJump_run]
  exact conditional_taken rfl hc hgo (branched_of_reached (branched_cacheJump (s.reached a) a))

theorem jmpi_taken {s : State} {cc : Cc} (rn : Gpr) (hc : s.holds cc = true) (hb : s.bank = true) :
    ∃ t, exec (.jmpi cc rn) s = .next t ∧ Branched s t s.core.csp (s.gpr rn) := by
  have hgo : (readGpr rn >>= fun t => jump t) s = .ok ((), s.branch (s.gpr rn)) := by
    rw [Act.bind_ok (readGpr_run rn hb), jump_run]
  exact conditional_taken rfl hc hgo (branched_jump s _)

theorem jmpr_taken {s : State} {cc : Cc} (rel : Byte) (hc : s.holds cc = true) :
    ∃ t, exec (.jmpr cc rel) s = .next t ∧
      Branched s t s.core.csp (s.core.ip + 2 + BitVec.ofInt 16 (2 * rel.toInt)) := by
  have hgo : (look (fun s => s.relTarget 2 rel) >>= fun t => cacheJump t) s =
      .ok ((), (s.fillCache (s.relTarget 2 rel)).branch (s.relTarget 2 rel)) := by
    rw [Act.look_bind, cacheJump_run]
  exact conditional_taken rfl hc hgo (branched_relative s 2 rel)

/-- JMPS loads CSP and empties the jump cache before it branches (R404, R931). -/
theorem jmps_exec (s : State) (seg : Byte) (a : Word) :
    ∃ t, exec (.jmps seg a) s = .next t ∧ Branched s t seg a := by
  have hrun : (setCsp seg >>= fun _ => absolute a >>= fun _ => flushCache >>= fun _ => jump a) s =
      .ok ((), ((State.reached { s with core := { s.core with csp := seg } } a).emptyCache).branch a) := by
    rw [setCsp, Act.change_bind, absolute, Act.change_bind, flushCache, Act.change_bind, jump_run]
  exact completes_run rfl hrun (branched_branch a rfl rfl rfl rfl rfl rfl)

/-- Settles O26: each conditional jump runs its body or advances, as its condition says. -/
theorem jumps : Obligations.Jumps := by
  unfold Obligations.Jumps
  refine ⟨fun s cc a => ?jmpa, fun s cc rn => ?jmpi, fun s cc rel => ?jmpr, jmps_exec⟩
  case jmpa => exact ⟨jmpa_taken a, conditional_passed rfl⟩
  case jmpi => exact ⟨jmpi_taken rn, conditional_passed rfl⟩
  case jmpr => exact ⟨jmpr_taken rel, conditional_passed rfl⟩

end Sys2Proof.Machine

namespace Sys2Proof.Machine

/-! ## Jumps on a bit (47_jump.md R405 to R409) -/

section
variable {s u : State} {b : Byte} {q : BitVec 4} {w : Word} {v : Bool} (rel : Byte)

/-- Reading the bit leaves the address of the jump, so the target counts from there. -/
theorem branched_afterBit (h : s.bitWord b = some (w, u)) :
    Branched u ((u.fillCache (u.relTarget 4 rel)).branch (u.relTarget 4 rel)) s.core.csp
      (s.core.ip + 4 + BitVec.ofInt 16 (2 * rel.toInt)) := by
  obtain ⟨hip, hcsp, -⟩ := bitWord_core h
  rw [← hip, ← hcsp]
  exact branched_relative u 4 rel

theorem jumpBit_taken (h : s.bitWord b = some (w, u)) (hv : wbit w q.toNat = v) :
    jumpBit b q rel v s = .ok ((), (u.fillCache (u.relTarget 4 rel)).branch (u.relTarget 4 rel)) := by
  obtain ⟨l, hloc, hread, -, -⟩ := readBit_at h
  unfold jumpBit
  rw [Act.bind_ok hloc, Act.bind_ok hread, Act.ite_run, if_pos hv, Act.look_bind, cacheJump_run]

theorem jumpBit_passed (h : s.bitWord b = some (w, u)) (hv : wbit w q.toNat = !v) :
    jumpBit b q rel v s = .ok ((), u.advance 4) := by
  obtain ⟨l, hloc, hread, -, -⟩ := readBit_at h
  have hne : wbit w q.toNat ≠ v := by rw [hv]; exact Bool.not_ne_self v
  unfold jumpBit
  rw [Act.bind_ok hloc, Act.bind_ok hread, Act.ite_run, if_neg hne, next_run]

theorem jumpBitChange_passed (h : s.bitWord b = some (w, u)) (hv : wbit w q.toNat = !v) :
    jumpBitChange b q rel v s = .ok ((), (u.withFlags (bitTestFlags u.core.psw (wbit w q.toNat))).advance 4) := by
  obtain ⟨l, hloc, hread, -, -⟩ := readBit_at h
  have hne : wbit w q.toNat ≠ v := by rw [hv]; exact Bool.not_ne_self v
  unfold jumpBitChange
  rw [Act.bind_ok hloc, Act.bind_ok hread, Act.look_bind, Act.bind_ok (setFlags_run _ _), Act.ite_run, if_neg hne,
    next_run]

/-- The jump comes after the write-back, and its target is that of the state which the write-back left. -/
theorem jumpBitChange_taken {x : State} (h : s.bitWord b = some (w, u)) (hv : wbit w q.toNat = v)
    (hx : (u.withFlags (bitTestFlags u.core.psw (wbit w q.toNat))).bitStored b (wset w q.toNat (!v))
      (bitMask q.toNat) = some x) :
    jumpBitChange b q rel v s = .ok ((), (x.fillCache (x.relTarget 4 rel)).branch (x.relTarget 4 rel)) := by
  obtain ⟨l, hloc, hread, -, hwrite⟩ := readBit_at h
  have hback := hwrite _ _ _ _ (withFlags_sameBank u _) hx
  unfold jumpBitChange
  rw [Act.bind_ok hloc, Act.bind_ok hread, Act.look_bind, Act.bind_ok (setFlags_run _ _), Act.ite_run, if_pos hv,
    Act.bind_ok hback, Act.look_bind, cacheJump_run]

end

@[simp] theorem steady_withFlags (s : State) (f : Flags) : (s.withFlags f).steady = s.steady := rfl

@[simp] theorem steady_storeCell (s : State) (k : Nat) (v : Byte) : (s.storeCell k v).steady = s.steady := rfl

@[simp] theorem steady_storeWord (s : State) (k : Nat) (v : Word) : (s.storeWord k v).steady = s.steady :=
  (steady_storeCell _ _ _).trans (steady_storeCell _ _ _)

/-- A branch from a state in which flags were set and a word stored: what it shares with the state before both. -/
theorem branched_stored {u t : State} {f : Flags} {k : Nat} {v ip : Word} {csp : Byte}
    (h : Branched ((u.withFlags f).storeWord k v) t csp ip) :
    t.mem.getWord k = v ∧ (∀ c, c ∉ wordCells k → t.mem.get c = u.mem.get c) ∧ t.core.ip = ip ∧ t.core.csp = csp ∧
      t.core.sp = u.core.sp ∧ t.core.psw = withFlags u.core.psw f ∧ t.core.tfr = u.core.tfr ||| branchFlags ip ∧
      t.steady = u.steady := by
  obtain ⟨hip, hcsp, hsp, hpsw, htfr, hmem, hsteady⟩ := h
  rw [steady_storeWord, steady_withFlags] at hsteady
  refine ⟨?word, fun c hc => ?other, hip, hcsp, hsp, hpsw, htfr, hsteady⟩
  case word => rw [hmem, State.storeWord_getWord]
  case other => rw [hmem, State.storeWord_get_other _ _ hc, State.withFlags_mem]

/-- JB and JNB: the bit that is tested for leads to the jump, the other one to the next instruction. -/
theorem jumpBit_decides {v : Bool} {i : Byte → BitVec 4 → Byte → Instr}
    (hi : ∀ b q rel s, exec (i b q rel) s = (jumpBit b q rel v).toOutcome s)
    {s u : State} {b : Byte} (q : BitVec 4) (rel : Byte) {w : Word} (h : s.bitWord b = some (w, u)) :
    (wbit w q.toNat = v → ∃ t, exec (i b q rel) s = .next t ∧
      Branched u t s.core.csp (s.core.ip + 4 + BitVec.ofInt 16 (2 * rel.toInt))) ∧
    (wbit w q.toNat = !v → ∃ t, exec (i b q rel) s = .next t ∧ Passed u t 4) :=
  ⟨fun hv => completes_run (hi b q rel s) (jumpBit_taken rel h hv) (branched_afterBit rel h),
    fun hv => completes_run (hi b q rel s) (jumpBit_passed rel h hv) (passed_advance u 4)⟩

/-- Settles O27: each instruction is the form `jumpBit` of the bit it tests for. -/
theorem jumpOnBit : Obligations.JumpOnBit := by
  unfold Obligations.JumpOnBit
  exact ⟨fun _ _ q rel _ _ h => jumpBit_decides (v := true) (fun _ _ _ _ => rfl) q rel h,
    fun _ _ q rel _ _ h => jumpBit_decides (v := false) (fun _ _ _ _ => rfl) q rel h⟩

section
variable {v : Bool} {i : Byte → BitVec 4 → Byte → Instr}
  (hi : ∀ b q rel s, exec (i b q rel) s = (jumpBitChange b q rel v).toOutcome s)
  {s u : State} {b : Byte} {q : BitVec 4} (rel : Byte) {w : Word} (h : s.bitWord b = some (w, u))
include hi h

theorem jumpBitChange_stays (hv : wbit w q.toNat = !v) :
    ∃ t, exec (i b q rel) s = .next t ∧ FlagsWritten u t (bitTestFlags u.core.psw (wbit w q.toNat)) 4 :=
  completes_run (hi b q rel s) (jumpBitChange_passed rel h hv) (flagsWritten_advance u _ 4)

/-- Whatever the word is written back to, the jump starts from what the write-back left. -/
theorem jumpBitChange_jumps (hv : wbit w q.toNat = v) {x : State}
    (hx : (u.withFlags (bitTestFlags u.core.psw (wbit w q.toNat))).bitStored b (wset w q.toNat (!v))
      (bitMask q.toNat) = some x) :
    ∃ t, exec (i b q rel) s = .next t ∧
      Branched x t x.core.csp (x.core.ip + 4 + BitVec.ofInt 16 (2 * rel.toInt)) :=
  completes_run (hi b q rel s) (jumpBitChange_taken rel h hv hx) (branched_relative x 4 rel)

/-- In RAM or a GPR the write-back is a store, which leaves IP and CSP. -/
theorem jumpBitChange_jumps_stored (hv : wbit w q.toNat = v) {k : Nat} (hk : u.bitCell b = some k) :
    ∃ t, exec (i b q rel) s = .next t ∧
      t.mem.getWord k = wset w q.toNat (!v) ∧ (∀ c, c ∉ wordCells k → t.mem.get c = u.mem.get c) ∧
      t.core.ip = s.core.ip + 4 + BitVec.ofInt 16 (2 * rel.toInt) ∧ t.core.csp = u.core.csp ∧
      t.core.sp = u.core.sp ∧ t.core.psw = withFlags u.core.psw (bitTestFlags u.core.psw (wbit w q.toNat)) ∧
      t.core.tfr = u.core.tfr ||| branchFlags (s.core.ip + 4 + BitVec.ofInt 16 (2 * rel.toInt)) ∧
      t.steady = u.steady := by
  obtain ⟨hip, -, -⟩ := bitWord_core h
  have hx := bitCell_gprBank (s := u.withFlags (bitTestFlags u.core.psw (wbit w q.toNat)))
    (by rw [withFlags_bitCell]; exact hk) (wset w q.toNat (!v)) (bitMask q.toNat)
  obtain ⟨t, ht, hbranched⟩ := jumpBitChange_jumps hi rel h hv hx
  rw [← hip]
  exact ⟨t, ht, branched_stored hbranched⟩

end

/-- Settles O28: each instruction is the form `jumpBitChange` of the bit it tests for. -/
theorem jumpAndChangeBit : Obligations.JumpAndChangeBit := by
  unfold Obligations.JumpAndChangeBit
  refine ⟨fun s b q rel w u h => ?jbc, fun s b q rel w u h => ?jnbs⟩
  case jbc =>
    have hi : ∀ b q rel s, exec (.jbc b q rel) s = (jumpBitChange b q rel true).toOutcome s := fun _ _ _ _ => rfl
    exact ⟨jumpBitChange_stays hi rel h, fun hv =>
      ⟨fun _ hk => jumpBitChange_jumps_stored hi rel h hv hk, fun _ hx => jumpBitChange_jumps hi rel h hv hx⟩⟩
  case jnbs =>
    have hi : ∀ b q rel s, exec (.jnbs b q rel) s = (jumpBitChange b q rel false).toOutcome s := fun _ _ _ _ => rfl
    exact ⟨jumpBitChange_stays hi rel h, fun hv =>
      ⟨fun _ hk => jumpBitChange_jumps_stored hi rel h hv hk, fun _ hx => jumpBitChange_jumps hi rel h hv hx⟩⟩

end Sys2Proof.Machine

namespace Sys2Proof

/-! ## Decoded instructions are well formed -/

/-- The instruction that a form stands for, if it stands for one, has an encoding. -/
def Form.wf : Form → Bool
  | .ok i => i.wf
  | _ => true

theorem Form.wf_when {i : Instr} (c : Bool) (h : i.wf = true) : (Form.when c i).wf = true := by
  cases c
  · rfl
  · exact h

theorem shortForm_wf (b1 : Byte) {r3 : Gpr → BitVec 3 → Instr} {ri rip : Gpr → BitVec 2 → Instr}
    (h3 : ∀ n d, (r3 n d).wf = true) (hi : ∀ n p, (ri n p).wf = true) (hip : ∀ n p, (rip n p).wf = true) :
    (shortForm b1 r3 ri rip).wf = true := by
  unfold shortForm
  split_ifs
  · exact h3 _ _
  · exact hi _ _
  · exact hip _ _

theorem protectedForm_wf (op b1 b2 b3 : Byte) {i : Instr} (h : i.wf = true) :
    (protectedForm op b1 b2 b3 i).wf = true := by
  unfold protectedForm
  split_ifs
  · exact h
  · rfl

/-- The two bits of the count give 1 to 4 (49_system.md R460). -/
theorem irangOf_ok (b1 : Byte) : irangOk (irangOf b1) = true := by
  have := (b1.extractLsb' 4 2).isLt
  unfold irangOk irangOf
  rw [Bool.and_eq_true, decide_eq_true_iff, decide_eq_true_iff]
  omega

theorem extD1_wf (b1 : Byte) : (extD1 b1).wf = true := by
  unfold extD1
  split
  · split <;> first | exact irangOf_ok b1 | rfl
  · rfl

theorem extDC_wf (b1 : Byte) : (extDC b1).wf = true := by
  unfold extDC
  split <;> exact irangOf_ok b1

theorem extD7_wf (b1 b2 b3 : Byte) : (extD7 b1 b2 b3).wf = true := by
  unfold extD7
  split
  · split <;> exact Form.wf_when _ (irangOf_ok b1)
  · rfl

/-- Only the EXTend forms hold a count; every other instruction is well formed as it stands. -/
theorem decodeForm_wf (b0 b1 b2 b3 : Byte) : (decodeForm b0 b1 b2 b3).wf = true := by
  unfold decodeForm
  split
  all_goals
    simp only [decodeRow0, decodeRow1, decodeRow2, decodeRow3, decodeRow4, decodeRow5, decodeRow6, decodeRow7,
      decodeRow8, decodeRow9, decodeRowA, decodeRowB, decodeRowC, decodeRowD, decodeRowE, decodeRowF]
    split
  all_goals first
    | rfl
    | exact shortForm_wf _ (fun _ _ => rfl) (fun _ _ => rfl) (fun _ _ => rfl)
    | exact Form.wf_when _ rfl
    | exact protectedForm_wf _ _ _ _ rfl
    | exact extD1_wf _
    | exact extDC_wf _
    | exact extD7_wf _ _ _

theorem decoded_instr {f : Form} {rest rest' : List Byte} {i : Instr} (h : f.decoded rest = .instr i rest') :
    f = .ok i := by
  cases f <;> cases h
  rfl

theorem decode_wf {bytes rest : List Byte} {i : Instr} (h : decode bytes = .instr i rest) : i.wf = true := by
  have of_form : ∀ (b0 b1 b2 b3 : Byte) (l : List Byte), (decodeForm b0 b1 b2 b3).decoded l = .instr i rest →
      i.wf = true := fun b0 b1 b2 b3 l h => by
    have hwf := decodeForm_wf b0 b1 b2 b3
    rw [decoded_instr h] at hwf
    exact hwf
  unfold decode at h
  split at h
  · split at h
    · split at h
      · exact of_form _ _ _ _ _ h
      · cases h
    · exact of_form _ _ _ _ _ h
  · cases h

end Sys2Proof

namespace Sys2Proof.Machine

/-! ## The extension counter (49_system.md R460) -/

/-- The extension counter is in its range. -/
def State.lockOk (s : State) : Prop := s.sys.ext.count ≤ 4

theorem lockOk_closed : Closed State.lockOk := lock_closed fun e => e.count ≤ 4

/-- Wherever the computation ends, from whatever state, `P` holds. -/
def Ends {α : Type} (P : State → Prop) (a : Act α) : Prop := ∀ s v t, a s = .ok (v, t) → P t

namespace Ends

variable {α β : Type} {P : State → Prop}

theorem keeps {a : Act α} (ha : Ends P a) : Keeps P a := fun s v t _ h => ha s v t h

theorem change {f : State → State} (h : ∀ s, P (f s)) : Ends P (Machine.change f) := by
  rintro s _ t ⟨⟩
  exact h s

/-- The last part of a sequence ends it. -/
theorem bind {a : Act α} {f : α → Act β} (hf : ∀ v, Ends P (f v)) : Ends P (a >>= f) := by
  intro s w u h
  obtain ⟨v, t, -, hrun⟩ := Act.bind_eq_ok h
  exact hf v t w u hrun

/-- What follows keeps what a first part ends with. -/
theorem then_keeps {a : Act α} {f : α → Act β} (ha : Ends P a) (hf : ∀ v, Keeps P (f v)) : Ends P (a >>= f) := by
  intro s w u h
  obtain ⟨v, t, hfirst, hrun⟩ := Act.bind_eq_ok h
  exact hf v t w u (ha s v t hfirst) hrun

end Ends

/-! ### Entries end a locked sequence -/

theorem enterHardware_ends (n : Nat) (level : BitVec 4) (ret : Word) (mulip : Bool) :
    Ends State.lockOk (enterHardware n level ret mulip) := .bind fun _ => .change fun _ => Nat.zero_le _

theorem takeTrap_ends (n : Nat) (mask : Word) (classA : Bool) : Ends State.lockOk (takeTrap n mask classA) :=
  .bind fun _ => .bind fun _ => .bind fun _ => enterHardware_ends _ _ _ _

theorem takeInterrupt_ends (ic : Sfr) (vec level : Nat) : Ends State.lockOk (takeInterrupt ic vec level) :=
  .bind fun _ => .bind fun _ => .bind fun _ => enterHardware_ends _ _ _ _

theorem interruptMul_ends (ic : Sfr) (vec level : Nat) (m : MulInstr) :
    Ends State.lockOk (interruptMul ic vec level m) :=
  .bind fun _ => .bind fun _ => .bind fun _ => .bind fun _ => .bind fun _ => .bind fun _ => .bind fun _ =>
    .bind fun _ => .bind fun _ => enterHardware_ends _ _ _ _

/-! ### Instructions -/

theorem extend_ends {count : Nat} (hc : irangOk count = true) (esfr : Bool) (ovr : Act Override) (len : Nat) :
    Ends State.lockOk (extend count esfr ovr len) := by
  rw [irangOk, Bool.and_eq_true, decide_eq_true_iff, decide_eq_true_iff] at hc
  exact .bind fun _ => .then_keeps (.change fun _ => hc.2) fun _ => next_keeps lockOk_closed len

/-- The ten forms that start a locked sequence are `extend` with their count. -/
theorem exec_extension {i : Instr} (hi : isExtension i = true) (hwf : i.wf = true) :
    ∃ a, (∀ s, exec i s = a.toOutcome s) ∧ Ends State.lockOk a := by
  unfold isExtension at hi
  split at hi
  case h_1 n => exact ⟨extend n false (pure .none) 2, fun _ => rfl, extend_ends hwf _ _ _⟩
  case h_2 n => exact ⟨extend n true (pure .none) 2, fun _ => rfl, extend_ends hwf _ _ _⟩
  case h_3 rm n => exact ⟨extend n false (pageOf rm) 2, fun _ => rfl, extend_ends hwf _ _ _⟩
  case h_4 p n => exact ⟨extend n false (pure (.page p)) 4, fun _ => rfl, extend_ends hwf _ _ _⟩
  case h_5 rm n => exact ⟨extend n true (pageOf rm) 2, fun _ => rfl, extend_ends hwf _ _ _⟩
  case h_6 p n => exact ⟨extend n true (pure (.page p)) 4, fun _ => rfl, extend_ends hwf _ _ _⟩
  case h_7 rm n => exact ⟨extend n false (segOf rm) 2, fun _ => rfl, extend_ends hwf _ _ _⟩
  case h_8 g n => exact ⟨extend n false (pure (.seg g)) 4, fun _ => rfl, extend_ends hwf _ _ _⟩
  case h_9 rm n => exact ⟨extend n true (segOf rm) 2, fun _ => rfl, extend_ends hwf _ _ _⟩
  case h_10 g n => exact ⟨extend n true (pure (.seg g)) 4, fun _ => rfl, extend_ends hwf _ _ _⟩
  case h_11 => cases hi

theorem exec_lockOk {i : Instr} (hwf : i.wf = true) {s t : State} (hs : s.lockOk) (ht : exec i s = .next t) :
    t.lockOk := by
  by_cases hi : isExtension i = true
  · obtain ⟨a, ha, hends⟩ := exec_extension hi hwf
    exact next_of_keeps lockOk_closed hends.keeps hs (ha s ▸ ht)
  · exact exec_keeps lockOk_closed (fun h => absurd h hi) hs ht

theorem tick_count_le (e : Ext) : e.tick.count ≤ e.count := by
  unfold Ext.tick
  split
  · exact Nat.sub_le _ _
  · exact Nat.zero_le _

theorem settle_lockOk {t : State} (i : Instr) (ht : t.lockOk) : (t.settle i).lockOk := by
  show (if isExtension i then t.sys.ext else t.sys.ext.tick).count ≤ 4
  split
  · exact ht
  · exact (tick_count_le _).trans ht

theorem finish_lockOk {t : State} (i : Instr) (ht : t.lockOk) : (t.finish i).lockOk := by
  have hpass := lockOk_closed.notePrefetch (lockOk_closed.pass (settle_lockOk i ht))
  unfold State.finish
  exact Closed.ite _ ht (lockOk_closed.rest (s := (t.settle i).pass.notePrefetch) rfl hpass)

theorem runPlain_lockOk {s : State} {i : Instr} (hwf : i.wf = true) (hs : s.lockOk) :
    Lands State.lockOk (s.runPlain i) := by
  unfold State.runPlain
  split
  · rename_i t ht
    exact .next (Closed.ite _ (lockOk_closed.stall _ hs) (finish_lockOk i (exec_lockOk hwf (by exact hs) ht)))
  · exact .fault _
  · exact .refused _

theorem runMul_lockOk {s : State} {i : Instr} (m : MulInstr) (hwf : i.wf = true) (hs : s.lockOk) :
    Lands State.lockOk (s.runMul i m) := by
  unfold State.runMul
  split
  · have hu := lockOk_closed.clocks (Config.freeNat .partClocks s.free 0) hs
    dsimp only
    split
    · exact inject_lands lockOk_closed (interruptMul_ends _ _ _ m).keeps hu
    · exact .refused _
    · exact injectPec_lands lockOk_closed _ _ hu
    · exact runPlain_lockOk hwf hu
  · exact runPlain_lockOk hwf hs

theorem runDecoded_lockOk {s : State} {i : Instr} (hwf : i.wf = true) (hs : s.lockOk) :
    Lands State.lockOk (s.runDecoded i) := by
  unfold State.runDecoded
  split
  · exact runMul_lockOk _ hwf hs
  · split
    · exact .refused _
    · exact runPlain_lockOk hwf hs

theorem runNext_lockOk {s : State} (hs : s.lockOk) : Lands State.lockOk s.runNext := by
  have hfetch : Keeps State.lockOk fetch := fetch_keeps fun _ _ _ hu => hu
  unfold State.runNext
  split
  · exact .refused _
  split
  · exact .next (lockOk_closed.stall _ hs)
  · exact .fault _
  · exact .refused _
  · rename_i u hu
    exact .next (fetchError_keeps lockOk_closed (hfetch s _ u hs hu))
  · rename_i bytes u hu
    have hp : u.lockOk := hfetch s _ u hs hu
    split
    · rename_i hi
      exact runDecoded_lockOk (decode_wf hi) hp
    · exact illegal_lands lockOk_closed _ rfl hp
    · exact illegal_lands lockOk_closed _ rfl hp
    · exact .refused _
    · exact .refused _

/-! ### The instruction boundary -/

theorem roundStep_lockOk {s : State} (hs : s.lockOk) : ∀ r ∈ s.roundStep, Lands State.lockOk r := by
  unfold State.roundStep
  split
  · split
    · exact Lands.none
    · exact (Lands.refused _).some
    · split
      · exact (injectPec_lands lockOk_closed _ _ hs).some
      · exact Lands.none
    · split
      · exact (inject_lands lockOk_closed (takeInterrupt_ends _ _ _).keeps hs).some
      · exact Lands.none
  · exact Lands.none

theorem runBoundary_lockOk {s : State} (hs : s.lockOk) : ∀ r ∈ s.runBoundary, Lands State.lockOk r := by
  unfold State.runBoundary
  split
  · exact Lands.none
  split
  · exact (inject_lands lockOk_closed (takeTrap_ends _ _ _).keeps hs).some
  · exact roundStep_lockOk hs

theorem idleStep_lockOk {s : State} (hs : s.lockOk) : Lands State.lockOk s.idleStep := by
  have ha := awake_keeps lockOk_closed hs
  unfold State.idleStep
  split
  · split
    · split
      · exact inject_lands lockOk_closed (takeTrap_ends _ _ _).keeps ha
      · split
        · exact .next ha
        · exact .refused _
        · exact injectPec_lands lockOk_closed _ _ (Closed.ite _ ha hs)
        · exact inject_lands lockOk_closed (takeInterrupt_ends _ _ _).keeps ha
    · exact .next ha
  · exact .next (lockOk_closed.rest (s := s.elapse) rfl (lockOk_closed.elapse hs))

/-- A reset ends a locked sequence. -/
theorem doReset_lockOk (s : State) (source : ResetSource) : Lands State.lockOk (s.doReset source) := by
  have hall : ∀ (u : State) p a b c, (u.resetAll p a b c).lockOk := fun _ _ _ _ _ => Nat.zero_le _
  cases source with
  | hardware powerOn =>
    unfold State.doReset
    dsimp only
    split
    · split
      · exact .next (hall _ _ _ _ _)
      · exact .next (Nat.zero_le _)
    · exact .refused _
  | software => exact .next (hall _ _ _ _ _)
  | watchdog => exact .next (hall _ _ _ _ _)

theorem boundary_lockOk {s : State} (hs : s.lockOk) : ∀ r ∈ s.boundary, Lands State.lockOk r := by
  unfold State.boundary
  split
  · exact (doReset_lockOk s _).some
  split
  · exact (Lands.next (asleep_keeps lockOk_closed hs)).some
  · exact (Lands.next (loading_keeps lockOk_closed (fun _ _ _ h => h) hs)).some
  · exact attend_lands lockOk_closed (idleStep_lockOk hs).some hs
  · exact attend_lands lockOk_closed (runBoundary_lockOk hs) hs

/-- Settles O58: entries and resets clear the counter, a counted instruction lowers it, and an instruction that sets it
was decoded with a count of 1 to 4. -/
theorem stepKeepsLock : Obligations.StepKeepsLock := by
  unfold Obligations.StepKeepsLock
  intro s t hs ht
  unfold step at ht
  split at ht
  · rename_i r hr
    exact boundary_lockOk hs r hr t ht
  · exact runNext_lockOk hs t ht

end Sys2Proof.Machine

namespace Sys2Proof.Machine

/-! ## The program counter and CSP -/

/-- `v` in CSP. -/
def State.withCsp (s : State) (v : Byte) : State := { s with core := { s.core with csp := v } }

@[simp] theorem setCsp_run (v : Byte) (s : State) : setCsp v s = .ok ((), s.withCsp v) := rfl

@[simp] theorem absolute_run (ip : Word) (s : State) : absolute ip s = .ok ((), s.reached ip) := rfl

@[simp] theorem flushCache_run (s : State) : flushCache s = .ok ((), s.emptyCache) := rfl

/-! ## Calls (48_call_return.md R420 to R425) -/

/-- A call goes on from the state of its push, but for what the fetch remembers. -/
theorem called_pushed (s : State) (k : Nat) (ret ip : Word) : Called s ((s.pushed k ret).branch ip) k ret s.core.csp ip :=
  called_branch ip rfl rfl (pushed_psw s k ret) rfl (pushed_csp s k ret) (pushed_steady s k ret)

/-- An absolute branch ends the use of old mappings, which belongs to what the fetch remembers. -/
theorem called_reached (s : State) (k : Nat) (ret ip : Word) :
    Called s (((s.pushed k ret).reached ip).branch ip) k ret s.core.csp ip :=
  called_branch ip rfl rfl (pushed_psw s k ret) rfl (pushed_csp s k ret) (pushed_steady s k ret)

theorem calla_taken {s : State} {cc : Cc} {k : Nat} (a : Word) (hc : s.holds cc = true)
    (hk : s.stackAt s.spDown = some k) :
    ∃ t, exec (.calla cc a) s = .next t ∧ Called s t k (s.core.ip + 4) s.core.csp a := by
  have hgo : (pushReturn 4 >>= fun _ => absolute a >>= fun _ => jump a) s =
      .ok ((), ((s.pushed k (s.core.ip + 4)).reached a).branch a) := by
    rw [Act.bind_ok (pushReturn_run hk), Act.bind_ok (absolute_run _ _), jump_run]
    rfl
  exact conditional_taken rfl hc hgo (called_reached s k _ a)

theorem calli_taken {s : State} {cc : Cc} {k : Nat} (rn : Gpr) (hc : s.holds cc = true) (hb : s.bank = true)
    (hk : s.stackAt s.spDown = some k) :
    ∃ t, exec (.calli cc rn) s = .next t ∧ Called s t k (s.core.ip + 2) s.core.csp (s.gpr rn) := by
  have hgo : (readGpr rn >>= fun t => pushReturn 2 >>= fun _ => jump t) s =
      .ok ((), (s.pushed k (s.core.ip + 2)).branch (s.gpr rn)) := by
    rw [Act.bind_ok (readGpr_run rn hb), Act.bind_ok (pushReturn_run hk), jump_run]
    rfl
  exact conditional_taken rfl hc hgo (called_pushed s k _ _)

theorem callr_exec {s : State} {k : Nat} (rel : Byte) (hk : s.stackAt s.spDown = some k) :
    ∃ t, exec (.callr rel) s = .next t ∧
      Called s t k (s.core.ip + 2) s.core.csp (s.core.ip + 2 + BitVec.ofInt 16 (2 * rel.toInt)) := by
  have hrun : (look (fun s => s.relTarget 2 rel) >>= fun t => pushReturn 2 >>= fun _ => jump t) s =
      .ok ((), (s.pushed k (s.core.ip + 2)).branch (s.relTarget 2 rel)) := by
    rw [Act.look_bind, Act.bind_ok (pushReturn_run hk), jump_run]
    rfl
  have htarget := called_pushed s k (s.core.ip + 2) (s.relTarget 2 rel)
  rw [relTarget_eq] at htarget hrun
  exact completes_run rfl hrun htarget

/-- Settles O29: each call runs to the state of its push, branched to its target, or advances. -/
theorem calls : Obligations.Calls := by
  unfold Obligations.Calls
  refine ⟨fun s cc a k => ?calla, fun s cc rn k => ?calli, fun s rel k => callr_exec rel⟩
  case calla => exact ⟨calla_taken a, conditional_passed rfl⟩
  case calli => exact ⟨calli_taken rn, conditional_passed rfl⟩

/-- The second push of an instruction: the return address of one of `len` bytes. -/
theorem pushReturn2_run {s : State} {k1 k2 : Nat} (v : Word) (len : Nat) (h : s.stackAt s.spDown2 = some k2) :
    pushReturn len (s.pushed k1 v) = .ok ((), (s.pushed k1 v).pushed k2 (s.core.ip + BitVec.ofNat 16 len)) := by
  rw [pushReturn_run (k := k2) (by rw [pushed_stackAt, pushed_spDown]; exact h), pushed_ip]

/-- Two pushes leave what one leaves. -/
theorem pushed2_facts (s : State) (k1 k2 : Nat) (v w : Word) :
    ((s.pushed k1 v).pushed k2 w).core.psw = s.core.psw ∧ ((s.pushed k1 v).pushed k2 w).core.csp = s.core.csp ∧
      ((s.pushed k1 v).pushed k2 w).steady = s.steady :=
  ⟨(pushed_psw _ _ _).trans (pushed_psw _ _ _), (pushed_csp _ _ _).trans (pushed_csp _ _ _),
    (pushed_steady _ _ _).trans (pushed_steady _ _ _)⟩

/-- CALLS loads CSP and empties the jump cache after its two pushes (R424, R931). -/
theorem calls_exec {s : State} {k1 k2 : Nat} (seg : Byte) (a : Word) (h1 : s.stackAt s.spDown = some k1)
    (h2 : s.stackAt s.spDown2 = some k2) :
    ∃ t, exec (.calls seg a) s = .next t ∧
      Called2 s t k1 k2 (s.core.csp.setWidth 16) (s.core.ip + 4) seg a s.core.psw := by
  obtain ⟨hpsw, -, hsteady⟩ := pushed2_facts s k1 k2 (s.core.csp.setWidth 16) (s.core.ip + 4)
  have hrun : (look (fun s => s.core.csp) >>= fun csp => push (csp.setWidth 16) >>= fun _ => pushReturn 4 >>= fun _ =>
      setCsp seg >>= fun _ => absolute a >>= fun _ => flushCache >>= fun _ => jump a) s =
      .ok ((), (((((s.pushed k1 (s.core.csp.setWidth 16)).pushed k2 (s.core.ip + 4)).withCsp seg).reached
        a).emptyCache).branch a) := by
    rw [Act.look_bind, Act.bind_ok (push_run _ h1), Act.bind_ok (pushReturn2_run _ 4 h2),
      Act.bind_ok (setCsp_run _ _), Act.bind_ok (absolute_run _ _), Act.bind_ok (flushCache_run _), jump_run]
    rfl
  exact completes_run rfl hrun (called2_branch (z := s) a h1 h2 rfl rfl hpsw rfl rfl rfl rfl hsteady)

/-- Reading a register operand leaves the program counter. -/
theorem regWord_ip {s u : State} {q : Byte} {v : Word} (h : s.regWord q = some (v, u)) : u.core.ip = s.core.ip := by
  unfold State.regWord at h
  split at h
  · split at h <;> cases h
    rfl
  · split at h <;> cases h
    unfold State.afterSfrRead
    split_ifs <;> first | rfl | rw [(adcRead_sameCpu s _).1]

/-- PCALL pushes its operand, then the return address, and takes the flags from the operand; the pushes leave PSW. -/
theorem pcall_exec {s u : State} {reg : Byte} {v : Word} {k1 k2 : Nat} (a : Word) (hq : s.regWord reg = some (v, u))
    (h1 : u.stackAt u.spDown = some k1) (h2 : u.stackAt u.spDown2 = some k2) :
    ∃ t, exec (.pcall reg a) s = .next t ∧
      Called2 u t k1 k2 v (s.core.ip + 4) u.core.csp a (withFlags u.core.psw (moveFlags u.core.psw v)) := by
  obtain ⟨hpsw, hcsp, hsteady⟩ := pushed2_facts u k1 k2 v (u.core.ip + 4)
  have hrun : (readReg reg >>= fun v => push v >>= fun _ => pushReturn 4 >>= fun _ => setMoveFlags v >>= fun _ =>
      jump a) s = .ok ((), (((u.pushed k1 v).pushed k2 (u.core.ip + 4)).withFlags (moveFlags u.core.psw v)).branch a) := by
    rw [Act.bind_ok (readReg_at hq), Act.bind_ok (push_run v h1), Act.bind_ok (pushReturn2_run v 4 h2),
      Act.bind_ok (setMoveFlags_run v _), jump_run, ← hpsw]
    rfl
  have hflags : (((u.pushed k1 v).pushed k2 (u.core.ip + 4)).withFlags (moveFlags u.core.psw v)).core.psw =
      withFlags u.core.psw (moveFlags u.core.psw v) := by
    rw [State.withFlags_core, hpsw]
  rw [← regWord_ip hq]
  exact completes_run rfl hrun (called2_branch (z := u) a h1 h2 rfl rfl hflags rfl hcsp rfl rfl hsteady)

/-- Settles O30: each call runs to the state of its two pushes, branched to its target. -/
theorem farCalls : Obligations.FarCalls := by
  unfold Obligations.FarCalls
  exact ⟨fun _ seg a _ _ h1 h2 => calls_exec seg a h1 h2, fun _ _ a _ _ _ _ hq h1 h2 => pcall_exec a hq h1 h2⟩

/-! ## TRAP (48_call_return.md R426) -/

theorem trap_segmented {s : State} {k1 k2 k3 : Nat} (n : BitVec 7) (hseg : s.sgtdis = false)
    (h1 : s.stackAt s.spDown = some k1) (h2 : s.stackAt s.spDown2 = some k2) (h3 : s.stackAt s.spDown3 = some k3) :
    ∃ t, exec (.trap n) s = .next t ∧
      Called3 (s.setPsw s.core.psw) t k1 k2 k3 s.core.psw (s.core.csp.setWidth 16) (s.core.ip + 2) 0
        (BitVec.ofNat 16 (4 * n.toNat)) s.core.psw := by
  obtain ⟨u, hrun, hmem, hsp, hpsw, htfr, -, hcsp, hsteady⟩ :=
    enter_segmented n.toNat none (s.core.ip + 2) false hseg h1 h2 h3
  exact completes_run rfl (by rw [Act.look_bind, hrun])
    (called3_branch _ h1 h2 h3 hmem hsp hpsw htfr hcsp rfl rfl hsteady)

theorem trap_flat {s : State} {k1 k2 : Nat} (n : BitVec 7) (hseg : s.sgtdis = true)
    (h1 : s.stackAt s.spDown = some k1) (h2 : s.stackAt s.spDown2 = some k2) :
    ∃ t, exec (.trap n) s = .next t ∧
      Called2 (s.setPsw s.core.psw) t k1 k2 s.core.psw (s.core.ip + 2)
        (if wbit s.core.syscon 11 then s.core.csp else 0) (BitVec.ofNat 16 (4 * n.toNat)) s.core.psw := by
  obtain ⟨u, hrun, hmem, hsp, hpsw, htfr, -, hcsp, hsteady⟩ :=
    enter_flat n.toNat none (s.core.ip + 2) false hseg h1 h2
  have hcsp' : u.core.csp = if wbit s.core.syscon 11 then s.core.csp else 0 := by
    rw [hcsp]
    cases wbit s.core.syscon 11 <;> rfl
  exact completes_run rfl (by rw [Act.look_bind, hrun])
    (called2_branch _ h1 h2 hmem hsp hpsw htfr hcsp' rfl rfl hsteady)

/-- Settles O31: TRAP is the entry sequence with the PSW it found. -/
theorem trapInstruction : Obligations.TrapInstruction := by
  unfold Obligations.TrapInstruction
  exact ⟨fun _ n _ _ _ hseg h1 h2 h3 => trap_segmented n hseg h1 h2 h3,
    fun _ n _ _ hseg h1 h2 => trap_flat n hseg h1 h2⟩
/-! ## Returns (48_call_return.md R431 to R433) -/

theorem popped_psw (s : State) : s.popped.core.psw = s.core.psw := by
  obtain ⟨-, -, -, hpsw, -⟩ := popped_facts s
  exact hpsw

theorem popped_csp (s : State) : s.popped.core.csp = s.core.csp := by
  obtain ⟨-, -, -, -, -, hcsp, -⟩ := popped_facts s
  exact hcsp

theorem popped_sp (s : State) : s.popped.core.sp = s.spUp := by
  obtain ⟨hsp, -⟩ := popped_facts s
  exact hsp

theorem popped_tfr (s : State) : s.popped.core.tfr = s.core.tfr ||| popFlags s s.spUp := by
  obtain ⟨-, -, htfr, -⟩ := popped_facts s
  exact htfr

theorem popped_treq (s : State) : s.popped.sys.treq = s.sys.treq ||| (popFlags s s.spUp &&& ~~~s.core.tfr) := by
  obtain ⟨-, -, -, -, -, -, -, -, -, -, -, htreq⟩ := popped_facts s
  exact htreq

theorem popped_popFlags (s : State) : popFlags s.popped = popFlags s := by
  obtain ⟨-, -, -, -, -, -, -, hstkun, -⟩ := popped_facts s
  funext sp
  unfold popFlags
  rw [hstkun]

theorem popped_bank (s : State) : s.popped.bank = s.bank := by
  unfold State.popped
  dsimp only
  split <;> rfl

theorem popped_gprAt (s : State) (n : Gpr) : s.popped.gprAt n = s.gprAt n := by
  unfold State.popped
  dsimp only
  split <;> rfl

theorem popped_spUp2 (s : State) : s.popped.spUp2 = s.spUp3 := by
  unfold State.spUp2 State.spUp3
  rw [popped_spUp]

/-- The trap flags after two pops. -/
theorem popped2_tfr (s : State) : s.popped.popped.core.tfr = s.core.tfr ||| popFlags s s.spUp ||| popFlags s s.spUp2 := by
  rw [popped_tfr, popped_tfr, popped_popFlags, popped_spUp]

/-- The trap flags after three pops. -/
theorem popped3_tfr (s : State) : s.popped.popped.popped.core.tfr =
    s.core.tfr ||| popFlags s s.spUp ||| popFlags s s.spUp2 ||| popFlags s s.spUp3 := by
  rw [popped_tfr, popped2_tfr, popped_popFlags, popped_popFlags, popped_spUp, popped_spUp2]

theorem popped3_sp (s : State) : s.popped.popped.popped.core.sp = s.spUp3 := by
  rw [popped_sp, popped_spUp, popped_spUp2]

/-- A return branches from a state whose SP and trap flags are those of its pops. -/
theorem returned_branch {s u : State} {csp : Byte} {sp flags : Word} (ip : Word) (hcsp : u.core.csp = csp)
    (hsp : u.core.sp = sp) (hpsw : u.core.psw = s.core.psw) (htfr : u.core.tfr = s.core.tfr ||| flags)
    (hmem : u.mem = s.mem) (hsteady : u.steady = s.steady) : Returned s (u.branch ip) csp ip sp flags := by
  obtain ⟨bip, bcsp, bsp, bpsw, btfr, bmem, bsteady⟩ := branched_jump u ip
  refine ⟨bip, bcsp.trans hcsp, bsp.trans hsp, bpsw.trans hpsw, ?_, bmem.trans hmem, bsteady.trans hsteady⟩
  rw [btfr, htfr]

theorem ret_exec {s : State} {k : Nat} (hk : s.stackAt s.effSp = some k) :
    ∃ t, exec .ret s = .next t ∧ Returned s t s.core.csp (s.mem.getWord k) s.spUp (popFlags s s.spUp) := by
  have hrun : (pop >>= fun ip => jump ip) s = .ok ((), s.popped.branch (s.mem.getWord k)) := by
    rw [Act.bind_ok (pop_run hk), jump_run]
  exact completes_run rfl hrun (returned_branch _ (popped_csp s) (popped_sp s) (popped_psw s) (popped_tfr s)
    (popped_mem s) (popped_steady s))

/-- RETS loads CSP and empties the jump cache after its two pops (R432, R931). -/
theorem rets_exec {s : State} {k1 k2 : Nat} (h1 : s.stackAt s.effSp = some k1) (h2 : s.stackAt s.spUp = some k2) :
    ∃ t, exec .rets s = .next t ∧
      Returned s t (loByte (s.mem.getWord k2)) (s.mem.getWord k1) s.spUp2 (popFlags s s.spUp ||| popFlags s s.spUp2) := by
  have hrun : (pop >>= fun ip => pop >>= fun csp => setCsp (loByte csp) >>= fun _ => flushCache >>= fun _ => jump ip) s =
      .ok ((), ((s.popped.popped.withCsp (loByte (s.mem.getWord k2))).emptyCache).branch (s.mem.getWord k1)) := by
    rw [Act.bind_ok (pop_run h1), Act.bind_ok (pop2_run h2), Act.bind_ok (setCsp_run _ _),
      Act.bind_ok (flushCache_run _), jump_run]
  refine completes_run rfl hrun (returned_branch _ rfl ?sp ?psw ?tfr ?mem ?steady)
  case sp => exact (popped_sp _).trans (popped_spUp s)
  case psw => exact (popped_psw _).trans (popped_psw s)
  case tfr => exact (popped2_tfr s).trans (BitVec.or_assoc _ _ _)
  case mem => exact (popped_mem _).trans (popped_mem s)
  case steady => exact (popped_steady _).trans (popped_steady s)

/-- RETP branches from the state that the write of its operand leaves. -/
theorem retp_exec {s x : State} {reg : Byte} {k1 k2 : Nat} (h1 : s.stackAt s.effSp = some k1)
    (h2 : s.stackAt s.spUp = some k2)
    (hx : (s.popped.popped.withFlags (moveFlags s.popped.popped.core.psw (s.mem.getWord k2))).regWordStored reg
      (s.mem.getWord k2) = some x) : exec (.retp reg) s = .next (x.branch (s.mem.getWord k1)) := by
  refine Act.toOutcome_ok ?_
  rw [Act.bind_ok (pop_run h1), Act.bind_ok (pop2_run h2), Act.bind_ok (setMoveFlags_run _ _),
    Act.bind_ok (writeReg_at hx), jump_run]

/-- RETP of a GPR: the popped word is stored in its cells. -/
theorem retp_gpr {s : State} {reg : Byte} {k1 k2 : Nat} (h1 : s.stackAt s.effSp = some k1)
    (h2 : s.stackAt s.spUp = some k2) (hq : isGprCode reg = true) (hb : s.bank = true) :
    ∃ t, exec (.retp reg) s = .next t ∧
      t.mem.getWord (s.gprAt (gprOfCode reg)) = s.mem.getWord k2 ∧
      (∀ c, c ∉ wordCells (s.gprAt (gprOfCode reg)) → t.mem.get c = s.mem.get c) ∧
      t.core.ip = s.mem.getWord k1 ∧ t.core.csp = s.core.csp ∧ t.core.sp = s.spUp2 ∧
      t.core.psw = withFlags s.core.psw (moveFlags s.core.psw (s.mem.getWord k2)) ∧
      t.core.tfr = s.core.tfr ||| popFlags s s.spUp ||| popFlags s s.spUp2 ||| branchFlags (s.mem.getWord k1) ∧
      t.steady = s.steady := by
  have hpsw : s.popped.popped.core.psw = s.core.psw := (popped_psw _).trans (popped_psw s)
  have hmem : s.popped.popped.mem = s.mem := (popped_mem _).trans (popped_mem s)
  have hbank : s.popped.popped.bank = true := by rw [popped_bank, popped_bank, hb]
  have hat : s.popped.popped.gprAt (gprOfCode reg) = s.gprAt (gprOfCode reg) := by rw [popped_gprAt, popped_gprAt]
  have hx : (s.popped.popped.withFlags (moveFlags s.popped.popped.core.psw (s.mem.getWord k2))).regWordStored reg
      (s.mem.getWord k2) = some ((s.popped.popped.withFlags (moveFlags s.popped.popped.core.psw
        (s.mem.getWord k2))).storeWord (s.gprAt (gprOfCode reg)) (s.mem.getWord k2)) := by
    unfold State.regWordStored
    rw [if_pos hq, State.withFlags_bank, if_pos hbank, State.withFlags_gprAt, hat]
  obtain ⟨tword, tother, tip, tcsp, tsp, tpsw, ttfr, tsteady⟩ := branched_stored (branched_jump _ (s.mem.getWord k1))
  refine ⟨_, retp_exec h1 h2 hx, tword, fun c hc => (tother c hc).trans (by rw [hmem]), tip, tcsp.trans ?csp,
    tsp.trans ?sp, tpsw.trans (by rw [hpsw]), ttfr.trans (by rw [popped2_tfr]), tsteady.trans ?steady⟩
  case csp => exact (popped_csp _).trans (popped_csp s)
  case sp => exact (popped_sp _).trans (popped_spUp s)
  case steady => exact (popped_steady _).trans (popped_steady s)

/-- Settles O32: each return runs to the state of its pops, branched to the word it popped first. -/
theorem returns : Obligations.Returns := by
  unfold Obligations.Returns
  exact ⟨fun _ _ => ret_exec, fun _ _ _ => rets_exec, fun _ _ _ _ h1 h2 => ⟨retp_gpr h1 h2, fun _ => retp_exec h1 h2⟩⟩

/-! ## RETI (48_call_return.md R436, 60_exceptions.md R545 to R547) -/

/-- What RETI leaves behind its pops: the new PSW, the trap class left, and whether a multiply or divide is to be
resumed. -/
def State.returned (s : State) (psw : Word) (mulip : Bool) : State :=
  let t := (s.setPsw psw).leaveTrap
  { t with sys := { t.sys with resume := mulip } }.emptyCache

theorem returned_steady {p s : State} (psw : Word) (mulip : Bool) (h : p.steady = s.steady) :
    (p.returned psw mulip).steady = State.steady { s with sys := { s.sys with
      inA := false, inB := s.sys.inA && s.sys.inB, retiDelay := 3, pswHist := none, resume := mulip
      hldenOnce := s.sys.hldenOnce || wbit psw 10 } } := by
  have hp : (p.returned psw mulip).steady = { p.steady with sys := { p.steady.sys with
      inA := false, inB := p.steady.sys.inA && p.steady.sys.inB, retiDelay := 3, pswHist := none, resume := mulip
      hldenOnce := p.steady.sys.hldenOnce || wbit psw 10 } } := rfl
  rw [hp, h]
  rfl

/-- A pop leaves CSP alone. -/
theorem popped_withCsp (s : State) (v : Byte) : (s.withCsp v).popped = s.popped.withCsp v := by
  unfold State.popped
  dsimp only
  by_cases hc : s.core.stkun < stackNorm (s.effSp + 2)
  · rw [if_pos hc, if_pos (by exact hc)]
    rfl
  · rw [if_neg hc, if_neg (by exact hc)]
    rfl

theorem pop_withCsp {s : State} {k : Nat} (v : Byte) (h : s.stackAt s.effSp = some k) :
    pop (s.withCsp v) = .ok (s.mem.getWord k, s.popped.withCsp v) := by
  rw [← popped_withCsp]
  exact pop_run (s := s.withCsp v) h

/-- RETI with segmentation pops IP, CSP and PSW. -/
theorem returnFromTrap_segmented {s : State} {k1 k2 k3 : Nat} (hseg : s.sgtdis = false)
    (h1 : s.stackAt s.effSp = some k1) (h2 : s.stackAt s.spUp = some k2) (h3 : s.stackAt s.spUp2 = some k3) :
    returnFromTrap s = .ok ((), ((s.popped.popped.popped.withCsp (loByte (s.mem.getWord k2))).returned
      (s.mem.getWord k3 &&& 0xFC7F) (wbit s.core.psw 5)).branch (s.mem.getWord k1)) := by
  have hpop := pop_withCsp (s := s.popped.popped) (k := k3) (loByte (s.mem.getWord k2))
    (by rw [popped_stackAt, popped_stackAt, popped_effSp, popped_spUp]; exact h3)
  rw [popped_mem, popped_mem] at hpop
  unfold returnFromTrap
  rw [Act.look_bind, Act.look_bind, hseg, Act.bind_ok (pop_run h1), Act.ite_run, if_pos (by decide),
    Act.bind_ok (pop2_run h2), Act.bind_ok (setCsp_run _ _)]
  exact Act.bind_ok hpop _

/-- Without segmentation it pops IP and PSW. -/
theorem returnFromTrap_flat {s : State} {k1 k2 : Nat} (hseg : s.sgtdis = true)
    (h1 : s.stackAt s.effSp = some k1) (h2 : s.stackAt s.spUp = some k2) :
    returnFromTrap s = .ok ((), (s.popped.popped.returned (s.mem.getWord k2 &&& 0xFC7F)
      (wbit s.core.psw 5)).branch (s.mem.getWord k1)) := by
  unfold returnFromTrap
  rw [Act.look_bind, Act.look_bind, hseg, Act.bind_ok (pop_run h1), Act.ite_run, if_neg (by decide)]
  exact Act.bind_ok (pop2_run h2) _

theorem or_and_not (t f : Word) : t ||| (f &&& ~~~t) = t ||| f := by
  apply BitVec.eq_of_getLsbD_eq
  intro i hi
  rw [BitVec.getLsbD_or, BitVec.getLsbD_or, BitVec.getLsbD_and, BitVec.getLsbD_not, decide_eq_true hi]
  cases t.getLsbD i <;> cases f.getLsbD i <;> rfl

/-- A flag that becomes set requests its trap: a pop leaves requested, beside the flags set, what was requested. -/
theorem popped_requests {s p : State} (h : p.sys.treq ||| p.core.tfr = s.sys.treq ||| p.core.tfr) :
    p.popped.sys.treq ||| p.popped.core.tfr = s.sys.treq ||| p.popped.core.tfr := by
  have hor : ∀ q t f : Word, (q ||| (f &&& ~~~t)) ||| (t ||| f) = (q ||| t) ||| f := fun q t f => by
    rw [← or_and_not t f, BitVec.or_assoc, BitVec.or_comm (f &&& ~~~t), BitVec.or_assoc t, BitVec.or_self,
      ← BitVec.or_assoc, BitVec.or_assoc, or_and_not, BitVec.or_assoc]
  rw [popped_treq, popped_tfr, hor, h, BitVec.or_assoc]

theorem branch_treq (s : State) (ip : Word) :
    (s.branch ip).sys.treq = s.sys.treq ||| (branchFlags ip &&& ~~~s.core.tfr) := by
  rw [State.branch_eq, branchFlags]
  dsimp only
  split
  · rfl
  · rw [show (0 : Word) &&& ~~~s.core.tfr = 0 from BitVec.zero_and]
    exact BitVec.or_zero.symm

/-- What RETI leaves from the state `p` of its pops. -/
theorem returned_branch_facts {p s : State} (psw ip : Word) (mulip : Bool) (hsteady : p.steady = s.steady)
    (hreq : p.sys.treq ||| p.core.tfr = s.sys.treq ||| p.core.tfr) :
    let t := (p.returned psw mulip).branch ip
    t.core.ip = ip ∧ t.core.csp = p.core.csp ∧ t.core.psw = psw ∧ t.core.sp = p.core.sp ∧ t.mem = p.mem ∧
      t.core.tfr = p.core.tfr ||| branchFlags ip ∧ t.sys.treq = s.sys.treq ||| t.core.tfr ∧
      t.steady = State.steady { s with sys := { s.sys with
        inA := false, inB := s.sys.inA && s.sys.inB, retiDelay := 3, pswHist := none, resume := mulip
        hldenOnce := s.sys.hldenOnce || wbit psw 10 } } := by
  obtain ⟨bip, bcsp, bsp, bpsw, btfr, bmem, bsteady⟩ := branched_jump (p.returned psw mulip) ip
  have htfr : (p.returned psw mulip).core.tfr = p.core.tfr := rfl
  have htreq : (p.returned psw mulip).sys.treq = p.sys.treq ||| p.core.tfr := rfl
  refine ⟨bip, bcsp, bpsw, bsp, bmem, btfr, ?_, bsteady.trans (returned_steady psw mulip hsteady)⟩
  rw [branch_treq, btfr, htfr, htreq, hreq, BitVec.or_assoc, or_and_not]

/-- Settles O33: RETI returns from the state of its two or three pops. -/
theorem returnFromInterrupt : Obligations.ReturnFromInterrupt := by
  unfold Obligations.ReturnFromInterrupt
  intro s k1 k2 k3 h1 h2 h3
  have hsteady2 : s.popped.popped.steady = s.steady := (popped_steady _).trans (popped_steady s)
  have hreq2 := popped_requests (popped_requests (p := s) rfl)
  have hmem2 : s.popped.popped.mem = s.mem := (popped_mem _).trans (popped_mem s)
  have hcsp2 : s.popped.popped.core.csp = s.core.csp := (popped_csp _).trans (popped_csp s)
  have hsp2 : s.popped.popped.core.sp = s.spUp2 := (popped_sp _).trans (popped_spUp s)
  cases hseg : s.sgtdis with
  | false =>
    obtain ⟨tip, tcsp, tpsw, tsp, tmem, ttfr, ttreq, tsteady⟩ := returned_branch_facts
      (p := s.popped.popped.popped.withCsp (loByte (s.mem.getWord k2))) (s.mem.getWord k3 &&& 0xFC7F)
      (s.mem.getWord k1) (wbit s.core.psw 5) ((popped_steady _).trans hsteady2) (popped_requests hreq2)
    refine ⟨_, Act.toOutcome_ok (returnFromTrap_segmented hseg h1 h2 (h3 hseg)), tip, tcsp, tpsw, tsp.trans ?sp,
      tmem.trans ((popped_mem _).trans hmem2), ttfr.trans ?tfr, ttreq, tsteady⟩
    case sp => exact popped3_sp s
    case tfr => exact congrArg (· ||| branchFlags (s.mem.getWord k1)) (popped3_tfr s)
  | true =>
    obtain ⟨tip, tcsp, tpsw, tsp, tmem, ttfr, ttreq, tsteady⟩ := returned_branch_facts (s.mem.getWord k2 &&& 0xFC7F)
      (s.mem.getWord k1) (wbit s.core.psw 5) hsteady2 hreq2
    refine ⟨_, Act.toOutcome_ok (returnFromTrap_flat hseg h1 h2), tip, tcsp.trans hcsp2, tpsw, tsp.trans hsp2,
      tmem.trans hmem2, ttfr.trans ?tfr, ttreq, tsteady⟩
    case tfr => exact congrArg (· ||| branchFlags (s.mem.getWord k1)) ((popped2_tfr s).trans BitVec.or_zero.symm)

end Sys2Proof.Machine


namespace Sys2Proof.Machine

/-! ## System control, NOP and locked sequences (49_system.md) -/

/-- A change of the state and then IP past the instruction. -/
theorem change_next_run (f : State → State) (len : Nat) (s : State) :
    (change f >>= fun _ => next len) s = .ok ((), (f s).advance len) := rfl

/-- An instruction that changes the state to `u` and passes. -/
theorem passes_from {i : Instr} {s u : State} {f : State → State} {len : Nat} (hf : f s = u)
    (hi : exec i s = (change f >>= fun _ => next len).toOutcome s) : ∃ t, exec i s = .next t ∧ Passed u t len :=
  completes_run hi (change_next_run f len s) (hf ▸ passed_advance (f s) len)

/-- The watchdog timer reloaded by SRVWDT (R454). -/
def State.watchdogServed (s : State) : State :=
  let t := s.setReg Sfr.wdt (s.reg Sfr.wdtcon &&& 0xFF00)
  let t := t.setRegBit Sfr.wdtcon 1 false
  { t with sys := { t.sys with wdtPre := 0, diswdtOpen := false } }

theorem watchdogServed_wdt (s : State) : s.watchdogServed.reg Sfr.wdt = s.reg Sfr.wdtcon &&& 0xFF00 :=
  (SfrFile.get_set _ _ _ _).trans ((if_neg (by decide)).trans (SfrFile.get_set_same _ _ _))

theorem watchdogServed_wdtr (s : State) : s.watchdogServed.regBit Sfr.wdtcon 1 = false :=
  (congrArg (wbit · 1) (SfrFile.get_set_same _ _ _)).trans
    ((wset_getLsbD _ _ _ _ (by decide)).trans (if_pos rfl))

theorem watchdogServed_other (s : State) {r : Sfr} (hwdt : r ≠ Sfr.wdt) (hcon : r ≠ Sfr.wdtcon) :
    s.watchdogServed.reg r = s.reg r :=
  (SfrFile.get_set _ _ _ _).trans ((if_neg hcon).trans ((SfrFile.get_set _ _ _ _).trans (if_neg hwdt)))

/-- DISWDT disables the watchdog in the window only (R455). -/
def State.watchdogDisabled (s : State) : State :=
  { s with sys := { s.sys with wdtDisabled := s.sys.wdtDisabled || s.sys.diswdtOpen } }

theorem watchdogDisabled_open {s : State} (h : s.sys.diswdtOpen = true) :
    s.watchdogDisabled = { s with sys := { s.sys with wdtDisabled := true } } := by
  unfold State.watchdogDisabled
  rw [h, Bool.or_true]

theorem watchdogDisabled_closed {s : State} (h : s.sys.diswdtOpen = false) : s.watchdogDisabled = s := by
  unfold State.watchdogDisabled
  rw [h, Bool.or_false]

/-- Power down begins only while NMI is low. -/
theorem enterPowerDown_run (s : State) : enterPowerDown s = .ok ((), if s.env.nmi then s.advance 4
    else { s.advance 4 with sys := { (s.advance 4).sys with cpu := .powerDown } }) := rfl

/-- Settles O36: the six operations run in every state. -/
theorem systemControl : Obligations.SystemControl := by
  unfold Obligations.SystemControl
  refine ⟨fun s => rfl, fun s => ⟨_, rfl, rfl, rfl, rfl, rfl⟩, fun s hlow => ?down, fun s hhigh => ?passes,
    fun s => ?served, fun s hopen => passes_from (watchdogDisabled_open hopen) rfl,
    fun s hclosed => passes_from (watchdogDisabled_closed hclosed) rfl,
    fun s => completes_run (a := endOfInit) rfl rfl (passed_advance _ 4)⟩
  case down =>
    refine completes_run (a := enterPowerDown) rfl (enterPowerDown_run s) ?_
    rw [hlow]
    exact ⟨rfl, rfl, rfl, rfl⟩
  case passes =>
    refine completes_run (a := enterPowerDown) rfl (enterPowerDown_run s) ?_
    rw [hhigh]
    exact passed_advance s 4
  case served =>
    exact completes_run (a := serviceWatchdog) rfl (change_next_run State.watchdogServed 4 s)
      ⟨watchdogServed_wdt s, watchdogServed_wdtr s, rfl, rfl, rfl, rfl, fun _ => watchdogServed_other s⟩

/-- The sub-encodings of CCh: only a zero second byte is NOP. -/
theorem decode_nop (b : Byte) (rest : List Byte) :
    decode (0xCC :: b :: rest) = if b = 0 then .instr .nop rest else .reserved := by
  show (Form.when (b = 0) .nop).decoded rest = _
  by_cases hb : b = 0
  · rw [decide_eq_true hb, if_pos hb]
    rfl
  · rw [decide_eq_false hb, if_neg hb]
    rfl

/-- Settles O37. -/
theorem nullOperation : Obligations.NullOperation := by
  unfold Obligations.NullOperation
  refine ⟨fun rest => (decode_nop 0 rest).trans (if_pos rfl), fun b rest hb => (decode_nop b rest).trans (if_neg hb),
    fun s => ⟨_, rfl, passed_advance s 2⟩, fun s => ⟨rfl, rfl⟩⟩

/-- An extension instruction passes, from the state in which the counter has started. -/
theorem extension_exec {i : Instr} {s : State} {n len : Nat} {esfr : Bool} {o : Override} {ovr : Act Override}
    (ho : ovr s = .ok (o, s)) (hi : exec i s = (extend n esfr ovr len).toOutcome s) :
    ∃ t, exec i s = .next t ∧
      Passed { s with sys := { s.sys with ext := { count := n, esfr := esfr, ovr := o } } } t len :=
  completes_run hi (Act.bind_ok ho _) (passed_advance _ len)

/-- The same for an override that the instruction names itself. -/
theorem extension_constant {i : Instr} {s : State} {n len : Nat} {esfr : Bool} {o : Override}
    (hi : exec i s = (extend n esfr (pure o) len).toOutcome s) : ∃ t, exec i s = .next t ∧
      Passed { s with sys := { s.sys with ext := { count := n, esfr := esfr, ovr := o } } } t len :=
  extension_exec rfl hi

theorem pageOf_run {s : State} (rm : Gpr) (h : s.bank = true) :
    pageOf rm s = .ok (.page ((s.gpr rm).extractLsb' 0 10), s) := Act.bind_ok (readGpr_run rm h) _

theorem segOf_run {s : State} (rm : Gpr) (h : s.bank = true) : segOf rm s = .ok (.seg (loByte (s.gpr rm)), s) :=
  Act.bind_ok (readGpr_run rm h) _

/-- Settles O38: each of the ten forms is `extend` with its count, kind and override. -/
theorem lockedSequences : Obligations.LockedSequences := by
  unfold Obligations.LockedSequences
  exact ⟨fun _ _ => extension_constant rfl, fun _ _ => extension_constant rfl,
    fun _ rm _ hb => extension_exec (pageOf_run rm hb) rfl, fun _ _ _ => extension_constant rfl,
    fun _ rm _ hb => extension_exec (pageOf_run rm hb) rfl, fun _ _ _ => extension_constant rfl,
    fun _ rm _ hb => extension_exec (segOf_run rm hb) rfl, fun _ _ _ => extension_constant rfl,
    fun _ rm _ hb => extension_exec (segOf_run rm hb) rfl, fun _ _ _ => extension_constant rfl⟩

/-! ## What a locked sequence holds back (49_system.md R460, 60_exceptions.md R547) -/

theorem roundOpen_locked {s : State} (h : s.sys.ext.count ≠ 0) : s.roundOpen = false := by
  unfold State.roundOpen
  rw [beq_false_of_ne h, Bool.and_false, Bool.false_and]

theorem mulOpen_locked {s : State} (h : s.sys.ext.count ≠ 0) : s.mulOpen = false := by
  unfold State.mulOpen
  rw [beq_false_of_ne h, Bool.and_false, Bool.false_and]

theorem classAOpen_locked {s : State} (h : s.sys.ext.count ≠ 0) : s.classAOpen = false := by
  unfold State.classAOpen
  rw [beq_false_of_ne h, Bool.and_false, Bool.false_and]

/-- The trap of class B to enter. -/
def State.classBDue (s : State) : Option (Nat × Word × Bool) :=
  if s.sys.treq &&& tfrClassB ≠ 0 ∧ !s.sys.inA ∧ !s.sys.inB then some (0x0A, tfrClassB, false) else none

/-- Where no trap of class A may be entered only one of class B can be due. -/
theorem trapDue_closed {s : State} (h : s.classAOpen = false) : s.trapDue = s.classBDue := by
  unfold State.trapDue
  rw [h]
  cases classATrap s.sys.treq <;> rfl

theorem classBDue_class {s : State} {n : Nat} {mask : Word} {classA : Bool}
    (h : s.classBDue = some (n, mask, classA)) : classA = false := by
  unfold State.classBDue at h
  split at h
  · cases h
    rfl
  · cases h

/-- Settles O53. -/
theorem lockedSequenceHolds : Obligations.LockedSequenceHolds := by
  unfold Obligations.LockedSequenceHolds
  refine ⟨fun s hlock => ⟨?round, mulOpen_locked hlock, fun n mask classA hdue => ?trap⟩,
    fun e he => if_pos he, fun e he => if_neg (Nat.not_lt.mpr he), fun s i hi => ?counted⟩
  case round =>
    unfold State.roundStep
    rw [roundOpen_locked hlock]
    rfl
  case trap => exact classBDue_class (trapDue_closed (classAOpen_locked hlock) ▸ hdue)
  case counted =>
    show (if isExtension i then s.sys.ext else s.sys.ext.tick) = _
    rw [hi]
    rfl

end Sys2Proof.Machine


namespace Sys2Proof.Machine

/-! ## The round of prioritisation (60_exceptions.md R502, R511, R520, R521, 70_reset_and_hazards.md R924) -/

/-- The source of a control register is enabled and requests. -/
def State.requests (s : State) (ic : Sfr) : Prop := s.regBit ic 7 = true ∧ s.regBit ic 6 = true

/-- Level and group of a source as one number. -/
def State.priority (s : State) (ic : Sfr) : Nat := fieldNat (s.reg ic) 0 6

/-- `w` is the outcome of a round over the nodes `l`. -/
def Best (s : State) (l : List (Sfr × Nat)) : Option Winner → Prop
  | none => ∀ n ∈ l, ¬ s.requests n.1
  | some w => (w.ic, w.vec) ∈ l ∧ s.requests w.ic ∧ w.prio = s.priority w.ic ∧
      (∀ n ∈ l, s.requests n.1 → s.priority n.1 ≤ w.prio) ∧
      (w.tie = true ↔ ∃ n ∈ l, n.1 ≠ w.ic ∧ s.requests n.1 ∧ s.priority n.1 = w.prio)

theorem contend_silent {s : State} {n : Sfr × Nat} (w : Option Winner) (h : ¬ s.requests n.1) : s.contend w n = w := by
  unfold State.contend
  exact if_neg (fun hc => h (Bool.and_eq_true_iff.mp hc))

theorem contend_first {s : State} {n : Sfr × Nat} (h : s.requests n.1) : s.contend none n =
    some { ic := n.1, vec := n.2, prio := s.priority n.1, tie := false } := by
  unfold State.contend
  exact if_pos (Bool.and_eq_true_iff.mpr h)

/-- A request takes part before, with or behind the best so far. -/
theorem contend_best {s : State} {n : Sfr × Nat} (v : Winner) (h : s.requests n.1) : s.contend (some v) n =
    if v.prio < s.priority n.1 then some { ic := n.1, vec := n.2, prio := s.priority n.1, tie := false }
    else if v.prio = s.priority n.1 then some { v with tie := true }
    else some v := by
  unfold State.contend
  exact if_pos (Bool.and_eq_true_iff.mpr h)

/-- A node that asks for nothing leaves the outcome. -/
theorem Best.silent {s : State} {l : List (Sfr × Nat)} {w : Option Winner} {n : Sfr × Nat} (hw : Best s l w)
    (h : ¬ s.requests n.1) : Best s (l ++ [n]) w := by
  cases w with
  | none =>
    intro m hm
    rcases List.mem_append.mp hm with hm | hm
    · exact hw m hm
    · exact List.mem_singleton.mp hm ▸ h
  | some v =>
    obtain ⟨hmem, hreq, hprio, hbest, htie⟩ := hw
    refine ⟨List.mem_append_left _ hmem, hreq, hprio, fun m hm hr => ?_, htie.trans ⟨?_, ?_⟩⟩
    · rcases List.mem_append.mp hm with hm | hm
      · exact hbest m hm hr
      · exact absurd (List.mem_singleton.mp hm ▸ hr) h
    · rintro ⟨m, hm, hother⟩
      exact ⟨m, List.mem_append_left _ hm, hother⟩
    · rintro ⟨m, hm, hne, hr, heq⟩
      rcases List.mem_append.mp hm with hm | hm
      · exact ⟨m, hm, hne, hr, heq⟩
      · exact absurd (List.mem_singleton.mp hm ▸ hr) h

/-- A request above all others wins alone. -/
theorem Best.alone {s : State} {l : List (Sfr × Nat)} {n : Sfr × Nat} (h : s.requests n.1)
    (hlow : ∀ m ∈ l, s.requests m.1 → s.priority m.1 < s.priority n.1) :
    Best s (l ++ [n]) (some { ic := n.1, vec := n.2, prio := s.priority n.1, tie := false }) := by
  refine ⟨List.mem_append_right _ (List.mem_singleton.mpr rfl), h, rfl, fun m hm hr => ?_, ?_⟩
  · rcases List.mem_append.mp hm with hm | hm
    · exact (hlow m hm hr).le
    · exact (List.mem_singleton.mp hm ▸ le_refl _)
  · refine ⟨fun hf => absurd hf Bool.false_ne_true, ?_⟩
    rintro ⟨m, hm, hne, hr, heq⟩
    rcases List.mem_append.mp hm with hm | hm
    · exact absurd heq (hlow m hm hr).ne
    · exact absurd (congrArg Prod.fst (List.mem_singleton.mp hm)) hne

/-- A request of the best priority makes a tie. -/
theorem Best.tied {s : State} {l : List (Sfr × Nat)} {v : Winner} {n : Sfr × Nat} (hv : Best s l (some v))
    (h : s.requests n.1) (hne : n.1 ≠ v.ic) (heq : v.prio = s.priority n.1) :
    Best s (l ++ [n]) (some { v with tie := true }) := by
  obtain ⟨hmem, hreq, hprio, hbest, -⟩ := hv
  refine ⟨List.mem_append_left _ hmem, hreq, hprio, fun m hm hr => ?_,
    fun _ => ⟨n, List.mem_append_right _ (List.mem_singleton.mpr rfl), hne, h, heq.symm⟩, fun _ => rfl⟩
  rcases List.mem_append.mp hm with hm | hm
  · exact hbest m hm hr
  · exact (List.mem_singleton.mp hm).symm ▸ heq.ge

/-- A lower request changes nothing. -/
theorem Best.lower {s : State} {l : List (Sfr × Nat)} {v : Winner} {n : Sfr × Nat} (hv : Best s l (some v))
    (hlt : s.priority n.1 < v.prio) : Best s (l ++ [n]) (some v) := by
  obtain ⟨hmem, hreq, hprio, hbest, htie⟩ := hv
  refine ⟨List.mem_append_left _ hmem, hreq, hprio, fun m hm hr => ?_, htie.trans ⟨?_, ?_⟩⟩
  · rcases List.mem_append.mp hm with hm | hm
    · exact hbest m hm hr
    · exact (List.mem_singleton.mp hm).symm ▸ hlt.le
  · rintro ⟨m, hm, hother⟩
    exact ⟨m, List.mem_append_left _ hm, hother⟩
  · rintro ⟨m, hm, hne, hr, heq⟩
    rcases List.mem_append.mp hm with hm | hm
    · exact ⟨m, hm, hne, hr, heq⟩
    · exact absurd (List.mem_singleton.mp hm ▸ heq) hlt.ne

/-- One more node takes part. -/
theorem Best.contend {s : State} {l : List (Sfr × Nat)} {w : Option Winner} {n : Sfr × Nat} (hw : Best s l w)
    (hnew : ∀ m ∈ l, m.1 ≠ n.1) : Best s (l ++ [n]) (s.contend w n) := by
  by_cases h : s.requests n.1
  · cases w with
    | none =>
      rw [contend_first h]
      exact .alone h fun m hm hr => absurd hr (hw m hm)
    | some v =>
      obtain ⟨hmem, -, -, hbest, -⟩ := id hw
      rw [contend_best v h]
      rcases Nat.lt_trichotomy v.prio (s.priority n.1) with hlt | heq | hgt
      · rw [if_pos hlt]
        exact .alone h fun m hm hr => (hbest m hm hr).trans_lt hlt
      · rw [if_neg heq.not_lt, if_pos heq]
        exact hw.tied h (hnew _ hmem).symm heq
      · rw [if_neg hgt.not_gt, if_neg hgt.ne']
        exact hw.lower hgt
  · rw [contend_silent w h]
    exact hw.silent h

/-- A round over nodes with different control registers. -/
theorem best_foldl (s : State) (l : List (Sfr × Nat)) (h : (l.map Prod.fst).Nodup) : Best s l (l.foldl s.contend none) := by
  induction l using List.reverseRecOn with
  | nil => exact fun _ hn => absurd hn List.not_mem_nil
  | append_singleton l n ih =>
    rw [List.map_append, List.nodup_append] at h
    obtain ⟨hl, -, hdisj⟩ := h
    rw [List.foldl_concat]
    exact (ih hl).contend fun m hm => hdisj _ (List.mem_map_of_mem hm) _ (List.mem_singleton.mpr rfl)

theorem nodes_distinct : (nodes.map Prod.fst).Nodup := by decide

/-- What the round finds. -/
theorem winner_best (s : State) : Best s nodes s.winner := best_foldl s nodes nodes_distinct

/-- A control register has one vector. -/
theorem nodes_vector {ic : Sfr} {v w : Nat} (hv : (ic, v) ∈ nodes) (hw : (ic, w) ∈ nodes) : v = w :=
  congrArg Prod.snd (List.inj_on_of_nodup_map nodes_distinct hv hw rfl)

/-- ILVL is the priority without the group. -/
theorem priority_level (w : Word) : fieldNat w 0 6 / 4 = fieldNat w 2 4 := by
  unfold fieldNat
  rw [BitVec.extractLsb'_toNat, BitVec.extractLsb'_toNat, Nat.shiftRight_zero, Nat.shiftRight_eq_div_pow]
  omega

/-- The channel is the lowest bit of ILVL with the group. -/
theorem priority_channel (w : Word) : fieldNat w 0 6 % 8 = fieldNat w 0 3 % 8 := by
  unfold fieldNat
  rw [BitVec.extractLsb'_toNat, BitVec.extractLsb'_toNat, Nat.shiftRight_zero]
  omega

theorem accepts_iff (s : State) (level : Nat) : s.accepts level = true ↔ s.Accepts level := by
  unfold State.accepts State.Accepts
  cases s.sys.pswHist with
  | none => exact (Bool.and_eq_true_iff).trans (and_congr_right' decide_eq_true_iff)
  | some h =>
    dsimp only
    split <;> simp only [Bool.or_eq_true, Bool.and_eq_true, decide_eq_true_eq]

/-- Only an enabled interrupt system accepts. -/
theorem enabled_of_accepts {s : State} {level : Nat} (h : s.accepts level = true) : s.enabled = true := by
  rw [accepts_iff] at h
  unfold State.Accepts at h
  unfold State.enabled
  cases hhist : s.sys.pswHist with
  | none =>
    rw [hhist] at h
    rw [h.1, Bool.true_or]
  | some p =>
    rw [hhist] at h
    dsimp only at h ⊢
    rw [Bool.or_eq_true]
    split at h
    · exact .inr h.1
    · exact h.imp And.left fun hold => hold.1.1

/-- The winner of the round alone has its priority: it is what `Wins` says. -/
theorem wins_iff {s : State} {ic : Sfr} {vec level : Nat} : Wins s ic vec level ↔
    s.accepts level = true ∧ ∃ w, s.winner = some w ∧ w.tie = false ∧ w.ic = ic ∧ w.vec = vec ∧ w.prio / 4 = level := by
  have hbest := winner_best s
  constructor
  · rintro ⟨hacc, hmem, h7, h6, hlevel, hothers⟩
    refine ⟨(accepts_iff s level).mpr hacc, ?_⟩
    cases hw : s.winner with
    | none =>
      rw [hw] at hbest
      exact absurd ⟨h7, h6⟩ (hbest _ hmem)
    | some w =>
      rw [hw] at hbest
      obtain ⟨wmem, ⟨w7, w6⟩, wprio, wbest, wtie⟩ := hbest
      have hic : w.ic = ic := by
        by_contra hne
        have hlt : s.priority w.ic < s.priority ic := hothers (w.ic, w.vec) wmem hne w7 w6
        have hle : s.priority ic ≤ w.prio := wbest (ic, vec) hmem ⟨h7, h6⟩
        omega
      subst hic
      refine ⟨w, rfl, Bool.eq_false_iff.mpr fun ht => ?_, rfl, nodes_vector wmem hmem, ?_⟩
      · obtain ⟨n, hn, hne, ⟨n7, n6⟩, heq⟩ := wtie.mp ht
        have hlt : s.priority n.1 < s.priority w.ic := hothers n hn hne n7 n6
        omega
      · rw [wprio, hlevel]
        exact priority_level _
  · rintro ⟨hacc, w, hw, htie, rfl, rfl, rfl⟩
    rw [hw] at hbest
    obtain ⟨wmem, ⟨w7, w6⟩, wprio, wbest, wtie⟩ := hbest
    refine ⟨(accepts_iff s _).mp hacc, wmem, w7, w6, wprio ▸ priority_level _, fun n hn hne n7 n6 => ?_⟩
    show s.priority n.1 < s.priority w.ic
    have hle : s.priority n.1 ≤ w.prio := wbest n hn ⟨n7, n6⟩
    refine lt_of_le_of_ne (hle.trans_eq wprio) fun heq => ?_
    exact absurd (wtie.mpr ⟨n, hn, hne, ⟨n7, n6⟩, heq.trans wprio.symm⟩) (Bool.eq_false_iff.mp htie)

/-- A source that won the round is served by the PEC on level 14 or 15 with COUNT left, else as an interrupt. -/
theorem service_of_wins {s : State} {ic : Sfr} {vec level : Nat} (h : Wins s ic vec level) :
    s.service = if 14 ≤ level ∧ s.pecLeft (s.pecChannel ic) ≠ 0 then .pec ic (s.pecChannel ic)
      else .interrupt ic vec level := by
  obtain ⟨hacc, w, hw, htie, rfl, rfl, rfl⟩ := wins_iff.mp h
  have hch : (⟨w.prio % 8, Nat.mod_lt _ (by omega)⟩ : Fin 8) = s.pecChannel w.ic := by
    have hbest := winner_best s
    rw [hw] at hbest
    obtain ⟨-, -, wprio, -, -⟩ := hbest
    exact Fin.ext (by rw [wprio]; exact priority_channel _)
  unfold State.service
  rw [enabled_of_accepts hacc, if_pos rfl, hw]
  dsimp only
  rw [hacc, if_pos rfl, htie, if_neg (by decide), hch]
  refine if_congr ?_ rfl rfl
  rw [Bool.and_eq_true, decide_eq_true_iff, bne_iff_ne]
  rfl

/-- A round that serves a source has a winner. -/
theorem wins_of_service {s : State} (hnone : s.service ≠ .none) (htie : s.service ≠ .tie) :
    ∃ ic vec level, Wins s ic vec level := by
  unfold State.service at hnone htie
  split at hnone
  case isFalse => exact absurd rfl hnone
  case isTrue he =>
    rw [if_pos he] at htie
    cases hw : s.winner with
    | none =>
      rw [hw] at hnone
      exact absurd rfl hnone
    | some w =>
      rw [hw] at hnone htie
      dsimp only at hnone htie
      split at hnone
      case isFalse => exact absurd rfl hnone
      case isTrue hacc =>
        rw [if_pos hacc] at htie
        refine ⟨_, _, _, wins_iff.mpr ⟨hacc, w, hw, Bool.eq_false_iff.mpr fun ht => ?_, rfl, rfl, rfl⟩⟩
        rw [if_pos ht] at htie
        exact absurd rfl htie

/-- Settles O51: the round serves what won it, by `service_of_wins`. -/
theorem highestRequestServed : Obligations.HighestRequestServed := by
  unfold Obligations.HighestRequestServed
  refine fun s => ⟨fun ic vec level hs => ?interrupt, fun ic ch hs => ?pec, fun _ _ _ => service_of_wins⟩
  case interrupt =>
    obtain ⟨ic', vec', level', hw⟩ := wins_of_service (s := s) (by rw [hs]; nofun) (by rw [hs]; nofun)
    have heq := hs.symm.trans (service_of_wins hw)
    split at heq
    case isTrue => cases heq
    case isFalse hc =>
      cases heq
      exact ⟨hw, fun hlevel => not_not.mp fun hleft => hc ⟨hlevel, hleft⟩⟩
  case pec =>
    obtain ⟨ic', vec', level', hw⟩ := wins_of_service (s := s) (by rw [hs]; nofun) (by rw [hs]; nofun)
    have heq := hs.symm.trans (service_of_wins hw)
    split at heq
    case isTrue hc =>
      cases heq
      exact ⟨_, _, hw, hc.1, rfl, hc.2⟩
    case isFalse => cases heq

/-- A source requests in every round that serves one. -/
theorem anyRequest_iff (s : State) :
    s.anyRequest = true ↔ ∃ n ∈ nodes, s.regBit n.1 7 = true ∧ s.regBit n.1 6 = true := by
  unfold State.anyRequest
  rw [List.any_eq_true]
  exact exists_congr fun n => and_congr_right' Bool.and_eq_true_iff

theorem anyRequest_of_service {s : State} (hnone : s.service ≠ .none) (htie : s.service ≠ .tie) :
    s.anyRequest = true := by
  obtain ⟨ic, vec, level, -, hmem, h7, h6, -⟩ := wins_of_service hnone htie
  exact (anyRequest_iff s).mpr ⟨_, hmem, h7, h6⟩

end Sys2Proof.Machine


namespace Sys2Proof.Machine

/-! ## One instruction at a boundary where nothing is due (60_exceptions.md R501, R551) -/

theorem step_runNext {s : State} (h : s.boundary = none) : step s = s.runNext := by
  unfold step
  rw [h]

section
variable {s u : State} {bytes : List Byte} (hip : wbit s.core.ip 0 = false) (hfetch : fetch s = .ok (some bytes, u))
include hip hfetch

/-- Bytes fetched at an even address that decode to an instruction run it. -/
theorem runNext_instr {i : Instr} {rest : List Byte} (hdec : decode bytes = .instr i rest) :
    s.runNext = u.runDecoded i := by
  unfold State.runNext
  rw [hip, if_neg Bool.false_ne_true, hfetch]
  dsimp only
  rw [hdec]

/-- Those of an undefined opcode, or of a protected instruction that is damaged, raise their flag. -/
theorem runNext_illegal {mask : Word} (hdec : decode bytes = .undefinedOpcode ∧ mask = (0x0080 : Word) ∨
    decode bytes = .protectionFault ∧ mask = 0x0008) : s.runNext = u.illegal mask := by
  unfold State.runNext
  rw [hip, if_neg Bool.false_ne_true, hfetch]
  dsimp only
  rcases hdec with ⟨hd, rfl⟩ | ⟨hd, rfl⟩
  · rw [hd]
    exact congrArg u.illegal (by decide)
  · rw [hd]
    exact congrArg u.illegal (by decide)

end

/-- A multiply or divide that is not interrupted runs as every instruction does, and so does every other instruction with
none to be resumed. -/
theorem runDecoded_plain {s : State} {i : Instr} (h : (mulInstr i = none ∧ s.sys.resume = false) ∨
    (mulInstr i ≠ none ∧ (s.mulOpen = false ∨ Config.freeBool .interruptMul s.free 0 = false))) :
    s.runDecoded i = s.runPlain i := by
  unfold State.runDecoded
  rcases h with ⟨hnone, hresume⟩ | ⟨hsome, hopen⟩
  · rw [hnone, hresume]
    rfl
  · cases hm : mulInstr i with
    | none => exact absurd hm hsome
    | some m =>
      refine if_neg ?_
      rw [Bool.and_eq_true, not_and_or, Bool.not_eq_true, Bool.not_eq_true]
      exact hopen

/-- Settles O47: the fetch leaves all but the record of the bus, and the decoded instruction runs from there. -/
theorem stepRunsDecoded : Obligations.StepRunsDecoded := by
  unfold Obligations.StepRunsDecoded
  intro s bytes i rest u hb hip hfetch hdec hmul
  have hu := fetch_only_bus hfetch
  refine ⟨hu, ?_⟩
  rw [step_runNext hb, runNext_instr hip hfetch hdec, runDecoded_plain (by rw [hu]; exact hmul)]
  rfl

theorem and_twoPow_eq_zero (w : Word) {i : Nat} (hi : i < 16) :
    w &&& BitVec.twoPow 16 i = 0 ↔ w.getLsbD i = false := by
  rw [BitVec.and_twoPow]
  cases w.getLsbD i with
  | false => exact iff_of_true rfl rfl
  | true => exact iff_of_false (fun h => absurd (congrArg (BitVec.getLsbD · i) h) (by
      rw [if_pos rfl]
      simp [hi])) (by decide)

/-- A trap whose flag is raised is not requested exactly where the flag was set and the trap was not requested
(60_exceptions.md R550). -/
theorem raise_unrequested (s : State) {mask : Word} {i : Nat} (hi : i < 16) (hmask : mask = BitVec.twoPow 16 i) :
    (s.raise mask).sys.treq &&& mask = 0 ↔ s.core.tfr &&& mask ≠ 0 ∧ s.sys.treq &&& mask = 0 := by
  subst hmask
  rw [Ne, and_twoPow_eq_zero _ hi, and_twoPow_eq_zero _ hi, and_twoPow_eq_zero _ hi, State.raise_sys]
  dsimp only
  rw [BitVec.getLsbD_or, BitVec.getLsbD_and, BitVec.getLsbD_not, BitVec.getLsbD_twoPow]
  cases s.core.tfr.getLsbD i <;> cases s.sys.treq.getLsbD i <;> simp [hi]

/-- What an illegal instruction leaves before time passes. -/
def State.cancelled (s : State) (mask : Word) : State :=
  { s.raise mask with sys := { (s.raise mask).sys with waiting := false } }

theorem illegal_taken {s : State} {mask : Word} (hA : s.sys.inA = false) (hB : s.sys.inB = false)
    (h : (s.raise mask).sys.treq &&& mask ≠ 0) : s.illegal mask = .next (s.cancelled mask).elapse := by
  unfold State.illegal
  exact if_neg (by
    rw [hA, hB, Bool.or_self, Bool.false_or, decide_eq_true_iff]
    exact h)

theorem illegal_refused {s : State} {mask : Word}
    (h : s.sys.inA = true ∨ s.sys.inB = true ∨ (s.raise mask).sys.treq &&& mask = 0) :
    s.illegal mask = .refused .heldClassBTrap := by
  unfold State.illegal
  exact if_pos (by
    rw [Bool.or_eq_true, Bool.or_eq_true, decide_eq_true_iff, or_assoc]
    exact h)

/-- A requested trap of class B is due outside the trap routines where none of class A is requested. -/
theorem trapDue_classB {s : State} {mask : Word} (hA : s.sys.inA = false) (hB : s.sys.inB = false)
    (hreq : s.sys.treq &&& mask ≠ 0) (hmask : mask &&& tfrClassB = mask) (hnone : classATrap s.sys.treq = none) :
    s.trapDue = some (0x0A, tfrClassB, false) := by
  have hclass : s.sys.treq &&& tfrClassB ≠ 0 := fun h => hreq (by
    rw [← hmask, BitVec.and_comm mask, ← BitVec.and_assoc, h]
    exact BitVec.zero_and)
  unfold State.trapDue
  rw [hnone]
  exact if_pos ⟨hclass, by rw [hA]; rfl, by rw [hB]; rfl⟩

/-- The two flags of an illegal instruction are single bits of class B. -/
theorem illegal_mask {d : Decoded} {mask : Word} (h : d = .undefinedOpcode ∧ mask = (0x0080 : Word) ∨
    d = .protectionFault ∧ mask = 0x0008) :
    mask &&& tfrClassB = mask ∧ ∃ i < 16, mask = BitVec.twoPow 16 i := by
  rcases h with ⟨-, rfl⟩ | ⟨-, rfl⟩
  · exact ⟨by decide, 7, by decide, by decide⟩
  · exact ⟨by decide, 3, by decide, by decide⟩

/-- Settles O48: the step is `illegal` in the state that the fetch leaves. -/
theorem undefinedInstruction : Obligations.UndefinedInstruction := by
  unfold Obligations.UndefinedInstruction
  intro s bytes u mask hb hip hfetch hdec
  obtain ⟨hclass, i, hi, hbit⟩ := illegal_mask hdec
  have hstep : step s = u.illegal mask := (step_runNext hb).trans (runNext_illegal hip hfetch hdec)
  have hreq := raise_unrequested u hi hbit
  have hu := fetch_only_bus hfetch
  have hcore : u.core = s.core := by rw [hu]
  have hsys : u.sys = s.sys := by rw [hu]
  rw [hcore, hsys] at hreq
  refine ⟨fun hA hB hclear => ?taken, fun hheld => ?refused⟩
  case taken =>
    have huA : u.sys.inA = false := hsys ▸ hA
    have huB : u.sys.inB = false := hsys ▸ hB
    have hdue : (u.raise mask).sys.treq &&& mask ≠ 0 := by
      rw [Ne, hreq, not_and_or, not_not]
      exact hclear
    refine ⟨u.cancelled mask, hstep.trans (illegal_taken huA huB hdue), ?_, ?_, ?_, ?_, ?_⟩
    · rw [← hcore]
      rfl
    · rw [← hcore, ← hsys]
      rfl
    · rw [hu]
      rfl
    · rw [hu]
      rfl
    · exact trapDue_classB (s := u.cancelled mask) huA huB hdue hclass
  case refused =>
    rw [hstep]
    exact illegal_refused (by rw [hsys, hreq]; exact hheld)

end Sys2Proof.Machine


namespace Sys2Proof.Machine

/-! ## The stopped states (49_system.md R452, R453) -/

/-- Nothing that counts while the clocks stand still changes the core, a register, the clock or a request. -/
theorem eventAsleep_still (s : State) (e : EnvEvent) : (s.eventAsleep e).core = s.core ∧ (s.eventAsleep e).sfr = s.sfr ∧
    (s.eventAsleep e).clock = s.clock ∧ (s.eventAsleep e).sys.cpu = s.sys.cpu ∧
    (s.eventAsleep e).sys.treq = s.sys.treq := by
  cases e <;> exact ⟨rfl, rfl, rfl, rfl, rfl⟩

theorem asleep_still (s : State) : s.asleep.core = s.core ∧ s.asleep.sfr = s.sfr ∧ s.asleep.clock = s.clock ∧
    s.asleep.sys.cpu = s.sys.cpu ∧ s.asleep.sys.treq = s.sys.treq := by
  unfold State.asleep
  split
  · exact ⟨rfl, rfl, rfl, rfl, rfl⟩
  · exact eventAsleep_still s _

theorem step_powerDown {s : State} (hreset : s.sys.resetReq = none) (hcpu : s.sys.cpu = .powerDown) :
    step s = .next s.asleep := by
  unfold step State.boundary
  rw [hreset, hcpu]

theorem step_idle {s : State} (hreset : s.sys.resetReq = none) (hcpu : s.sys.cpu = .idle) (hunit : s.unitStop = none)
    (hpec : s.sys.pecWait = none) : step s = s.idleStep := by
  unfold step State.boundary
  rw [hreset, hcpu]
  dsimp only
  unfold State.attend
  rw [hunit, hpec]

theorem wakes_iff (s : State) : s.wakes = true ↔
    (∃ n ∈ nodes, s.regBit n.1 7 = true ∧ s.regBit n.1 6 = true) ∨ s.sys.nmiEdge = true ∨
      wbit s.sys.treq 15 = true ∨ ∃ d, s.trapDue = some d := by
  unfold State.wakes
  rw [Bool.or_eq_true, Bool.or_eq_true, Bool.or_eq_true, anyRequest_iff, Option.isSome_iff_exists, or_assoc, or_assoc]

/-- Idle goes on where nothing wakes the CPU. -/
theorem idleStep_sleeps {s : State} (h : s.wakes = false) :
    s.idleStep = .next { s.elapse with sys := { s.elapse.sys with pswHist := none } } := by
  unfold State.idleStep
  rw [h]
  rfl

/-- Out of a locked sequence, or with nothing to service, the program goes on. -/
theorem idleStep_awakes {s : State} (h : s.wakes = true)
    (hnone : s.sys.idleLocked = true ∨ (s.trapDue = none ∧ s.service = .none)) : s.idleStep = .next s.awake := by
  unfold State.idleStep
  rw [if_pos h]
  rcases hnone with hlocked | ⟨htrap, hservice⟩
  · rw [hlocked]
    rfl
  · rw [htrap, hservice]
    exact ite_self _

/-- A trap that is due ends idle and is entered. -/
theorem idleStep_trap {s : State} {n : Nat} {mask : Word} {classA : Bool} (hlocked : s.sys.idleLocked = false)
    (hdue : s.trapDue = some (n, mask, classA)) : s.idleStep = s.awake.inject (takeTrap n mask classA) := by
  unfold State.idleStep
  rw [if_pos ((wakes_iff s).mpr (.inr (.inr (.inr ⟨_, hdue⟩)))), hlocked, hdue]
  rfl

/-- A round that serves a request wakes the CPU. -/
theorem wakes_of_service {s : State} (hnone : s.service ≠ .none) (htie : s.service ≠ .tie) : s.wakes = true :=
  (wakes_iff s).mpr (.inl ((anyRequest_iff s).mp (anyRequest_of_service hnone htie)))

theorem idleStep_interrupt {s : State} {ic : Sfr} {vec level : Nat} (hlocked : s.sys.idleLocked = false)
    (hdue : s.trapDue = none) (hs : s.service = .interrupt ic vec level) :
    s.idleStep = s.awake.inject (takeInterrupt ic vec level) := by
  unfold State.idleStep
  rw [if_pos (wakes_of_service (by rw [hs]; nofun) (by rw [hs]; nofun)), hlocked, hdue, hs]
  rfl

/-- After a PEC transfer idle goes on, but for an edge at NMI. -/
theorem idleStep_pec {s : State} {ic : Sfr} {ch : Fin 8} (hlocked : s.sys.idleLocked = false)
    (hdue : s.trapDue = none) (hs : s.service = .pec ic ch) :
    s.idleStep = (if s.sys.nmiEdge then s.awake else s).injectPec ic ch := by
  unfold State.idleStep
  rw [if_pos (wakes_of_service (by rw [hs]; nofun) (by rw [hs]; nofun)), hlocked, hdue, hs]
  rfl

/-- Settles O55. -/
theorem stoppedStates : Obligations.StoppedStates := by
  unfold Obligations.StoppedStates
  refine ⟨fun s hreset hcpu => ?down, fun s hreset hcpu hunit hpec => ?idle⟩
  case down =>
    obtain ⟨hcore, hsfr, hclock, hstate, htreq⟩ := asleep_still s
    exact ⟨_, step_powerDown hreset hcpu, hcore, hsfr, hclock, hstate.trans hcpu, htreq⟩
  case idle =>
    rw [step_idle hreset hcpu hunit hpec]
    refine ⟨fun hcalls => idleStep_awakes ((wakes_iff s).mpr hcalls),
      fun hlocked => ⟨fun _ _ _ => idleStep_trap hlocked, fun _ _ _ => idleStep_interrupt hlocked,
        fun _ _ => idleStep_pec hlocked⟩,
      fun hquiet => idleStep_sleeps (Bool.eq_false_iff.mpr fun hw => hquiet ((wakes_iff s).mp hw))⟩

end Sys2Proof.Machine


namespace Sys2Proof.Machine

/-! ## Entering an interrupt or a hardware trap (60_exceptions.md R540, R542, R543, R547) -/

/-- A step from `s` to `t` that requests the traps of the flags it sets, and no others. -/
def Raised (s t : State) : Prop :=
  ∃ f, t.core.tfr = s.core.tfr ||| f ∧ t.sys.treq = s.sys.treq ||| (f &&& ~~~s.core.tfr)

theorem Raised.refl {s t : State} (htfr : t.core.tfr = s.core.tfr) (htreq : t.sys.treq = s.sys.treq) : Raised s t :=
  ⟨0, htfr.trans BitVec.or_zero.symm, htreq.trans (BitVec.or_zero.symm.trans
    (congrArg (s.sys.treq ||| ·) BitVec.zero_and.symm))⟩

theorem Raised.trans {s t u : State} (h : Raised s t) (h' : Raised t u) : Raised s u := by
  obtain ⟨f, htfr, htreq⟩ := h
  obtain ⟨g, utfr, utreq⟩ := h'
  refine ⟨f ||| g, by rw [utfr, htfr, BitVec.or_assoc], ?_⟩
  rw [utreq, htreq, htfr]
  apply BitVec.eq_of_getLsbD_eq
  intro i hi
  simp only [BitVec.getLsbD_or, BitVec.getLsbD_and, BitVec.getLsbD_not, hi, decide_true, Bool.true_and]
  cases s.core.tfr.getLsbD i <;> cases f.getLsbD i <;> simp

theorem Raised.raise {s t : State} (mask : Word) (h : Raised s t) : Raised s (t.raise mask) :=
  h.trans ⟨mask, rfl, rfl⟩

theorem Raised.pushed {s t : State} (k : Nat) (v : Word) (h : Raised s t) : Raised s (t.pushed k v) := by
  have hsp : Raised s ((t.storeWord k v).setSp t.spDown) := h.trans (.refl rfl rfl)
  unfold State.pushed
  dsimp only
  split
  · exact hsp.raise _
  · exact hsp

theorem Raised.branch {s t : State} (ip : Word) (h : Raised s t) : Raised s (t.branch ip) := by
  rw [State.branch_eq]
  dsimp only
  split
  · exact Raised.raise _ (h.trans (.refl rfl rfl))
  · exact h.trans (.refl rfl rfl)

/-- The requests follow from the flags. -/
theorem Raised.treq {s t : State} (h : Raised s t) : t.sys.treq = s.sys.treq ||| (t.core.tfr &&& ~~~s.core.tfr) := by
  obtain ⟨f, htfr, htreq⟩ := h
  rw [htreq, htfr]
  apply BitVec.eq_of_getLsbD_eq
  intro i hi
  simp only [BitVec.getLsbD_or, BitVec.getLsbD_and, BitVec.getLsbD_not]
  cases s.core.tfr.getLsbD i <;> simp

/-- The PSW on entry: the level, MULIP, and the rest of the PSW that was saved. -/
theorem entryPsw_some (psw : Word) (level : BitVec 4) (mulip : Bool) : entryPsw psw (some level) mulip =
    (level.setWidth 16 <<< 12) ||| (psw &&& 0x0FDF) ||| (if mulip then 0x20 else 0) := by
  apply BitVec.eq_of_getLsbD_eq
  intro i hi
  unfold entryPsw
  dsimp only
  rw [wset_getLsbD _ _ _ _ hi]
  interval_cases i <;> cases mulip <;> simp

/-- The entry keeps HLDEN. -/
theorem entryPsw_hlden (psw : Word) (level : BitVec 4) (mulip : Bool) :
    wbit (entryPsw psw (some level) mulip) 10 = wbit psw 10 := by
  unfold entryPsw wbit
  dsimp only
  rw [wset_getLsbD _ _ _ _ (by decide), if_neg (by decide)]
  simp

/-- What the hardware clears at the end of an entry (R540, D15). -/
def State.entryDone (s : State) : State :=
  { s with sys := { s.sys with
    ext := { count := 0, esfr := false, ovr := .none }, pswHist := none, lag := { s.sys.lag with sp := none } } }

theorem branch_entryDone (s : State) (ip : Word) : (s.branch ip).entryDone = s.entryDone.branch ip := by
  rw [State.branch_eq, State.branch_eq]
  dsimp only
  split <;> rfl

/-- What stays through an entry: all but the extension counter, the history of PSW and whether HLDEN was ever set. -/
def State.entryFrame (s : State) : State :=
  { s with sys := { s.sys with
    ext := { count := 0, esfr := false, ovr := .none }, pswHist := none
    hldenOnce := s.sys.hldenOnce || wbit s.core.psw 10 } }

theorem entryDone_steady {s u : State} {level : BitVec 4} {mulip : Bool}
    (h : u.steady = (s.setPsw (entryPsw s.core.psw (some level) mulip)).steady) :
    u.entryDone.steady = s.entryFrame.steady := by
  have hu : u.entryDone.steady = { u.steady with sys := { u.steady.sys with
    ext := { count := 0, esfr := false, ovr := .none }, pswHist := none } } := rfl
  have hs : (s.setPsw (entryPsw s.core.psw (some level) mulip)).steady = { s.steady with sys := { s.steady.sys with
      hldenOnce := s.sys.hldenOnce || wbit s.core.psw 10 } } := by
    rw [← entryPsw_hlden s.core.psw level mulip]
    rfl
  rw [hu, h, hs]
  rfl

theorem enterHardware_run {s u : State} {n : Nat} {level : BitVec 4} {ret ip : Word} {mulip : Bool}
    (h : enter n (some level) ret mulip s = .ok ((), u.branch ip)) :
    enterHardware n level ret mulip s = .ok ((), u.entryDone.branch ip) := by
  rw [← branch_entryDone]
  exact Act.bind_ok h _

/-- Segment 0 is the code segment under every mapping. -/
theorem codeAddr_segment0 {t : State} {ip : Word} (hcsp : t.core.csp = 0) (hip : t.core.ip = ip) (m : BusMap) :
    t.codeAddr m t.core.ip = 0#8 ++ ip := by
  unfold State.codeAddr
  rw [hcsp, hip]
  exact congrArg (· ++ ip) (ite_self _)

section
variable {s z : State} (n : Nat) (level : BitVec 4) (mulip : Bool)

/-- What a hardware entry with segmentation leaves, beside `z`, which shares with `s` all but what the entry changes. -/
theorem enterHardware_segmented {k1 k2 k3 : Nat} (hseg : s.sgtdis = false) (h1 : s.stackAt s.spDown = some k1)
    (h2 : s.stackAt s.spDown2 = some k2) (h3 : s.stackAt s.spDown3 = some k3) (hz : z.core = s.core)
    (hzm : z.mem = s.mem) (hzs : z.steady = s.entryFrame.steady) :
    ∃ t, enterHardware n level s.core.ip mulip s = .ok ((), t) ∧
      Called3 z t k1 k2 k3 s.core.psw (s.core.csp.setWidth 16) s.core.ip 0 (BitVec.ofNat 16 (4 * n))
        (entryPsw s.core.psw (some level) mulip) ∧
      (∀ m, t.codeAddr m t.core.ip = 0#8 ++ BitVec.ofNat 16 (4 * n)) ∧ Raised s t := by
  obtain ⟨u, hrun, hmem, hsp, hpsw, htfr, htreq, hcsp, hsteady⟩ :=
    enter_segmented n (some level) s.core.ip mulip hseg h1 h2 h3
  have hcalled := called3_branch (z := z) (u := u.entryDone) (BitVec.ofNat 16 (4 * n)) h1 h2 h3 hmem hsp hpsw htfr hcsp
    hz hzm ((entryDone_steady hsteady).trans hzs.symm)
  obtain ⟨-, -, -, -, tip, tcsp, -⟩ := id hcalled
  have hpushes := (((Raised.refl (s := s) rfl rfl).pushed k1 s.core.psw).pushed k2 (s.core.csp.setWidth 16)).pushed k3
    s.core.ip
  exact ⟨_, enterHardware_run hrun, hcalled, codeAddr_segment0 tcsp tip,
    (hpushes.trans (.refl (t := u.entryDone) htfr htreq)).branch _⟩

/-- The same without segmentation: CSP is cleared and not saved (log 43). -/
theorem enterHardware_flat {k1 k2 : Nat} (hseg : s.sgtdis = true) (h1 : s.stackAt s.spDown = some k1)
    (h2 : s.stackAt s.spDown2 = some k2) (hz : z.core = s.core)
    (hzm : z.mem = s.mem) (hzs : z.steady = s.entryFrame.steady) :
    ∃ t, enterHardware n level s.core.ip mulip s = .ok ((), t) ∧
      Called2 z t k1 k2 s.core.psw s.core.ip 0 (BitVec.ofNat 16 (4 * n)) (entryPsw s.core.psw (some level) mulip) ∧
      (∀ m, t.codeAddr m t.core.ip = 0#8 ++ BitVec.ofNat 16 (4 * n)) ∧ Raised s t := by
  obtain ⟨u, hrun, hmem, hsp, hpsw, htfr, htreq, hcsp, hsteady⟩ :=
    enter_flat n (some level) s.core.ip mulip hseg h1 h2
  have hcalled := called2_branch (z := z) (u := u.entryDone) (csp := 0) (BitVec.ofNat 16 (4 * n)) h1 h2 hmem hsp hpsw htfr
    hcsp hz hzm ((entryDone_steady hsteady).trans hzs.symm)
  obtain ⟨-, -, -, tip, tcsp, -⟩ := id hcalled
  have hpushes := ((Raised.refl (s := s) rfl rfl).pushed k1 s.core.psw).pushed k2 s.core.ip
  exact ⟨_, enterHardware_run hrun, hcalled, codeAddr_segment0 tcsp tip,
    (hpushes.trans (.refl (t := u.entryDone) htfr htreq)).branch _⟩

end

/-- An injected sequence that ends without waiting for the bus. -/
theorem inject_run {s t : State} {a : Act Unit} (hs : s.sys.waiting = false) (ha : a s = .ok ((), t))
    (ht : t.sys.waiting = false) : s.inject a = .next t.afterInjected := by
  have hsame : { s with sys := { s.sys with waiting := false } } = s := by
    rw [← hs]
  unfold State.inject
  rw [hsame, Act.toOutcome_ok ha]
  dsimp only
  rw [ht, if_neg Bool.false_ne_true]

theorem waiting_of_steady {s t : State} (h : t.steady = s.steady) : t.sys.waiting = s.sys.waiting := by
  have hw : t.steady.sys.waiting = s.steady.sys.waiting := by rw [h]
  exact hw

theorem boundary_running {s : State} (hreset : s.sys.resetReq = none) (hcpu : s.sys.cpu = .running)
    (hunit : s.unitStop = none) (hpec : s.sys.pecWait = none) : s.boundary = s.runBoundary := by
  unfold State.boundary
  rw [hreset, hcpu]
  dsimp only
  unfold State.attend
  rw [hunit, hpec]

theorem step_trap {s : State} {n : Nat} {mask : Word} {classA : Bool} (hreset : s.sys.resetReq = none)
    (hcpu : s.sys.cpu = .running) (hunit : s.unitStop = none) (hwait : s.sys.waiting = false)
    (hpec : s.sys.pecWait = none) (hdue : s.trapDue = some (n, mask, classA)) :
    step s = s.inject (takeTrap n mask classA) := by
  unfold step
  rw [boundary_running hreset hcpu hunit hpec]
  unfold State.runBoundary
  rw [hwait, if_neg Bool.false_ne_true, hdue]

/-- The state in which a hardware trap is entered. -/
def State.trapping (s : State) (mask : Word) (classA : Bool) : State :=
  { s.holdResume with sys := { s.holdResume.sys with
    treq := s.sys.treq &&& ~~~mask, inA := s.sys.inA || classA, inB := s.sys.inB || !classA } }

/-- What stays of it: the trap class entered, and the record of a multiply or divide held up (log 11). -/
def State.trapFrame (s : State) (classA : Bool) : State :=
  { s with sys := { s.sys with
      inA := s.sys.inA || classA, inB := s.sys.inB || !classA, resume := false, suspended := s.heldFrames
      ext := { count := 0, esfr := false, ovr := .none }, pswHist := none
      hldenOnce := s.sys.hldenOnce || wbit s.core.psw 10 } }

theorem takeTrap_run (n : Nat) (mask : Word) (classA : Bool) (s : State) :
    takeTrap n mask classA s = enterHardware n 15 s.core.ip false (s.trapping mask classA) := rfl

/-- A trap that is due is entered where the run of its entry ends. -/
theorem step_takeTrap {s t : State} {n : Nat} {mask : Word} {classA : Bool}
    (hstep : step s = s.inject (takeTrap n mask classA)) (hwait : s.sys.waiting = false)
    (hrun : enterHardware n 15 s.core.ip false (s.trapping mask classA) = .ok ((), t))
    (hsteady : t.steady = (s.trapFrame classA).steady) : step s = .next t.afterInjected :=
  hstep.trans (inject_run hwait ((takeTrap_run n mask classA s).trans hrun) ((waiting_of_steady hsteady).trans hwait))

/-- Settles O49: the entry of the trap from `State.trapping`. -/
theorem trapEntry : Obligations.TrapEntry := by
  unfold Obligations.TrapEntry
  intro s n mask classA hreset hcpu hunit hwait hpec hdue
  have hstep := step_trap hreset hcpu hunit hwait hpec hdue
  have hpsw : entryPsw s.core.psw (some 15) false = 0xF000 ||| (s.core.psw &&& 0x0FDF) :=
    (entryPsw_some _ _ _).trans BitVec.or_zero
  dsimp only
  rw [← hpsw]
  refine ⟨fun k1 k2 k3 hseg h1 h2 h3 => ?segmented, fun k1 k2 hseg h1 h2 => ?flat⟩
  case segmented =>
    obtain ⟨t, hrun, hcalled, hcode, hraised⟩ := enterHardware_segmented (s := s.trapping mask classA)
      (z := s.trapFrame classA) n 15 false hseg h1 h2 h3 rfl rfl rfl
    obtain ⟨-, -, -, -, -, -, -, -, -, hsteady⟩ := id hcalled
    exact ⟨t, step_takeTrap hstep hwait hrun hsteady, hcalled, hcode, hraised.treq⟩
  case flat =>
    obtain ⟨t, hrun, hcalled, hcode, hraised⟩ := enterHardware_flat (s := s.trapping mask classA)
      (z := s.trapFrame classA) n 15 false hseg h1 h2 rfl rfl rfl
    obtain ⟨-, -, -, -, -, -, -, -, hsteady⟩ := id hcalled
    exact ⟨t, step_takeTrap hstep hwait hrun hsteady, hcalled, hcode, hraised.treq⟩

/-! ## Interrupts -/

theorem step_round {s : State} (h : s.atRound) : step s = s.roundStep.getD s.runNext := by
  obtain ⟨hreset, hcpu, hunit, hwait, hpec, hdue, -⟩ := h
  unfold step
  rw [boundary_running hreset hcpu hunit hpec]
  unfold State.runBoundary
  rw [hwait, if_neg Bool.false_ne_true, hdue]
  dsimp only
  cases s.roundStep <;> rfl

/-- What the round serves is taken at this boundary, or the program goes on first (R501, D7). -/
theorem step_taken {s : State} {r : Result} (h : s.atRound)
    (hr : s.roundStep = if Config.freeBool .takeRequest s.free 0 then some r else none) :
    step s = if Config.freeBool .takeRequest s.free 0 then r else s.runNext := by
  rw [step_round h, hr]
  cases Config.freeBool .takeRequest s.free 0 <;> rfl

theorem roundStep_interrupt {s : State} {ic : Sfr} {vec level : Nat} (h : s.atRound)
    (hs : s.service = .interrupt ic vec level) : s.roundStep =
      if Config.freeBool .takeRequest s.free 0 then some (s.inject (takeInterrupt ic vec level)) else none := by
  obtain ⟨-, -, -, -, -, -, hopen⟩ := h
  unfold State.roundStep
  rw [hopen, if_pos rfl, hs]

/-- The state in which the interrupt `ic` is entered. -/
def State.interrupting (s : State) (ic : Sfr) : State :=
  let r := s.setRegBit ic 7 false
  { r with sys := { r.sys with resume := false } }

/-- What stays of it. -/
def State.interruptFrame (s : State) (ic : Sfr) : State :=
  { s.setRegBit ic 7 false with sys := { s.sys with
      resume := false, ext := { count := 0, esfr := false, ovr := .none }, pswHist := none
      hldenOnce := s.sys.hldenOnce || wbit s.core.psw 10 } }

theorem takeInterrupt_run (ic : Sfr) (vec level : Nat) (s : State) : takeInterrupt ic vec level s =
    enterHardware vec (BitVec.ofNat 4 level) s.core.ip s.sys.resume (s.interrupting ic) := rfl

/-- A request that the round serves is entered where the run of its entry ends, or the program goes on first. -/
theorem step_takeInterrupt {s t : State} {ic : Sfr} {vec level : Nat} (h : s.atRound)
    (hs : s.service = .interrupt ic vec level)
    (hrun : enterHardware vec (BitVec.ofNat 4 level) s.core.ip s.sys.resume (s.interrupting ic) = .ok ((), t))
    (hsteady : t.steady = (s.interruptFrame ic).steady) :
    step s = if Config.freeBool .takeRequest s.free 0 then .next t.afterInjected else s.runNext := by
  obtain ⟨-, -, -, hwait, -⟩ := id h
  rw [step_taken h (roundStep_interrupt h hs), inject_run hwait ((takeInterrupt_run ic vec level s).trans hrun)
    ((waiting_of_steady hsteady).trans hwait)]

/-- A level fits its field of the PSW modulo 16. -/
theorem level_word (level : Nat) : (BitVec.ofNat 4 level).setWidth 16 = BitVec.ofNat 16 (level % 16) := by
  apply BitVec.eq_of_toNat_eq
  rw [BitVec.toNat_setWidth, BitVec.toNat_ofNat, BitVec.toNat_ofNat]

/-- Settles O50: the entry of the interrupt from `State.interrupting`. -/
theorem interruptEntry : Obligations.InterruptEntry := by
  unfold Obligations.InterruptEntry
  intro s ic vec level hround hservice
  dsimp only
  rw [← level_word, ← entryPsw_some]
  refine ⟨fun k1 k2 k3 hseg h1 h2 h3 => ?segmented, fun k1 k2 hseg h1 h2 => ?flat⟩
  case segmented =>
    obtain ⟨t, hrun, hcalled, hcode, -⟩ := enterHardware_segmented (s := s.interrupting ic)
      (z := s.interruptFrame ic) vec (BitVec.ofNat 4 level) s.sys.resume hseg h1 h2 h3 rfl rfl rfl
    obtain ⟨-, -, -, -, -, -, -, -, -, hsteady⟩ := id hcalled
    exact ⟨t, step_takeInterrupt hround hservice hrun hsteady, hcalled, hcode⟩
  case flat =>
    obtain ⟨t, hrun, hcalled, hcode, -⟩ := enterHardware_flat (s := s.interrupting ic)
      (z := s.interruptFrame ic) vec (BitVec.ofNat 4 level) s.sys.resume hseg h1 h2 rfl rfl rfl
    obtain ⟨-, -, -, -, -, -, -, -, hsteady⟩ := id hcalled
    exact ⟨t, step_takeInterrupt hround hservice hrun hsteady, hcalled, hcode⟩

end Sys2Proof.Machine


namespace Sys2Proof.Machine

/-! ## The PEC (60_exceptions.md R530 to R532) -/

/-- The pointer that INC names is moved. -/
theorem pecStepped_match (s : State) (ch : Fin 8) (inc : Nat) (src dst d : Word) :
    (match inc with
      | 0 => s
      | 1 => s.storeWord (pecPointer ch + 2) (dst + d)
      | _ => s.storeWord (pecPointer ch) (src + d)) = s.pecStepped ch inc src dst d := by
  unfold State.pecStepped
  rcases inc with _ | _ | inc <;> rfl

section
variable {s u x : State} {ch : Fin 8} (ic : Sfr)

/-- A word transfer: read, write, pointer, count. -/
theorem pecTransfer_word {v : Word} (hword : wbit (s.reg (Sfr.pecc ch)) 8 = false) (hsrc : wbit (s.srcp ch) 0 = false)
    (hdst : wbit (s.dstp ch) 0 = false) (hread : readWord (segment0 (s.srcp ch)) s = .ok (v, u))
    (hwrite : writeWord (segment0 (s.dstp ch)) v u = .ok ((), x)) : pecTransfer ic ch s =
      .ok ((), (x.pecStepped ch (fieldNat (s.reg (Sfr.pecc ch)) 9 2) (s.srcp ch) (s.dstp ch) 2).pecCount ic ch
        (s.pecLeft ch)) := by
  unfold pecTransfer
  rw [Act.look_bind, Act.look_bind, Act.look_bind]
  dsimp only
  rw [Act.ite_run, hword, if_neg (by rw [show wbit (s.mem.getWord (pecPointer ch)) 0 = false from hsrc,
    show wbit (s.mem.getWord (pecPointer ch + 2)) 0 = false from hdst]; decide), if_neg Bool.false_ne_true]
  refine (Act.bind_ok hread _).trans ((Act.bind_ok hwrite _).trans ?_)
  exact congrArg (fun t : State => Except.ok ((), t.pecCount ic ch (s.pecLeft ch))) (pecStepped_match x ch _ _ _ 2)

/-- A byte transfer. -/
theorem pecTransfer_byte {v : Byte} (hbyte : wbit (s.reg (Sfr.pecc ch)) 8 = true)
    (hread : readByte (segment0 (s.srcp ch)) s = .ok (v, u))
    (hwrite : writeByte (segment0 (s.dstp ch)) v u = .ok ((), x)) : pecTransfer ic ch s =
      .ok ((), (x.pecStepped ch (fieldNat (s.reg (Sfr.pecc ch)) 9 2) (s.srcp ch) (s.dstp ch) 1).pecCount ic ch
        (s.pecLeft ch)) := by
  unfold pecTransfer
  rw [Act.look_bind, Act.look_bind, Act.look_bind]
  dsimp only
  rw [Act.ite_run, hbyte, if_neg (by rw [Bool.not_true, Bool.false_and]; decide), if_pos rfl]
  refine (Act.bind_ok hread _).trans ((Act.bind_ok hwrite _).trans ?_)
  exact congrArg (fun t : State => Except.ok ((), t.pecCount ic ch (s.pecLeft ch))) (pecStepped_match x ch _ _ _ 1)

/-- A word transfer with an odd pointer. -/
theorem pecTransfer_odd (hword : wbit (s.reg (Sfr.pecc ch)) 8 = false)
    (hodd : (wbit (s.srcp ch) 0 || wbit (s.dstp ch) 0) = true) : pecTransfer ic ch s = .ok ((), s.raise tfrIllopa) := by
  unfold pecTransfer
  rw [Act.look_bind, Act.look_bind, Act.look_bind]
  dsimp only
  rw [Act.ite_run, hword, if_pos (by rw [Bool.not_false, Bool.true_and]; exact hodd)]
  rfl

end

/-- A physical address in segment 0 is odd where its offset is. -/
theorem segment0_even {a : Word} (h : wbit a 0 = false) : ¬ (segment0 a).toNat % 2 = 1 := by
  have hnat : (segment0 a).toNat = a.toNat := by
    unfold segment0
    rw [BitVec.toNat_append]
    simp
  rw [hnat]
  unfold wbit at h
  rw [BitVec.getLsbD, Nat.testBit_zero] at h
  exact of_decide_eq_false h

/-- A transfer has moved its datum to the bytes in `cells`, and left all but what the bus shows. -/
def Moved (s x : State) (cells : List Nat) : Prop :=
  x.core = s.core ∧ x.sfr = s.sfr ∧ x.sys.waiting = s.sys.waiting ∧ ∀ c, c ∉ cells → x.mem.get c = s.mem.get c

/-! ### The pointers -/

section
variable (x : State) (ch : Fin 8) (inc : Nat) (src dst d : Word)

theorem pecStepped_keeps : (x.pecStepped ch inc src dst d).core = x.core ∧ (x.pecStepped ch inc src dst d).sfr = x.sfr ∧
    (x.pecStepped ch inc src dst d).sys.waiting = x.sys.waiting := by
  unfold State.pecStepped
  split
  · exact ⟨rfl, rfl, rfl⟩
  · split <;> exact ⟨rfl, rfl, rfl⟩

/-- A byte outside the pointers of the channel. -/
theorem pecStepped_other {c : Nat} (hc : c ∉ pecCells ch) :
    (x.pecStepped ch inc src dst d).mem.get c = x.mem.get c := by
  have hc' := hc
  rw [pecCells, List.mem_append, not_or] at hc'
  obtain ⟨hsrc, hdst⟩ := hc'
  unfold State.pecStepped
  split
  · rfl
  · split
    · exact State.storeWord_get_other _ _ hdst
    · exact State.storeWord_get_other _ _ hsrc

theorem pecStepped_srcp : (x.pecStepped ch inc src dst d).srcp ch = if 2 ≤ inc then src + d else x.srcp ch := by
  unfold State.pecStepped
  rcases inc with _ | _ | inc
  · rfl
  · exact storeWord_getWord_apart x _ (.inr (by omega))
  · exact State.storeWord_getWord _ _ _

theorem pecStepped_dstp : (x.pecStepped ch inc src dst d).dstp ch = if inc = 1 then dst + d else x.dstp ch := by
  unfold State.pecStepped
  rcases inc with _ | _ | inc
  · rfl
  · exact State.storeWord_getWord _ _ _
  · exact storeWord_getWord_apart x _ (.inl (by omega))

end

/-! ### COUNT and the request flag -/

section
variable (x : State) (ic : Sfr) (ch : Fin 8) (n : Nat)

theorem pecCount_keeps : (x.pecCount ic ch n).core = x.core ∧ (x.pecCount ic ch n).mem = x.mem ∧
    (x.pecCount ic ch n).sys = x.sys := by
  unfold State.pecCount
  dsimp only
  split <;> split <;> exact ⟨rfl, rfl, rfl⟩

theorem setReg_reg (s : State) (r q : Sfr) (v : Word) : (s.setReg r v).reg q = if q = r then v else s.reg q :=
  SfrFile.get_set _ _ _ _

/-- PECCx after a transfer with COUNT = `n`. -/
theorem pecCount_pecc (hic : ic ≠ Sfr.pecc ch) : (x.pecCount ic ch n).reg (Sfr.pecc ch) =
    if n = 0xFF then x.reg (Sfr.pecc ch) else (x.reg (Sfr.pecc ch) &&& 0xFF00) ||| BitVec.ofNat 16 (n - 1) := by
  unfold State.pecCount State.setRegBit
  dsimp only
  rw [apply_ite (State.reg · (Sfr.pecc ch)), setReg_reg, if_neg hic.symm, ite_self,
    apply_ite (State.reg · (Sfr.pecc ch)), setReg_reg, if_pos rfl]

/-- The control register of the request. -/
theorem pecCount_ic (hic : ic ≠ Sfr.pecc ch) : (x.pecCount ic ch n).reg ic =
    if n = 1 then x.reg ic else wset (x.reg ic) 7 false := by
  have hcount : ((if n = 0xFF then x else x.setReg (Sfr.pecc ch)
      ((x.reg (Sfr.pecc ch) &&& 0xFF00) ||| BitVec.ofNat 16 (n - 1))) : State).reg ic = x.reg ic := by
    rw [apply_ite (State.reg · ic), setReg_reg, if_neg hic, ite_self]
  unfold State.pecCount State.setRegBit
  dsimp only
  rw [apply_ite (State.reg · ic), setReg_reg, if_pos rfl, hcount]

/-- Every other register. -/
theorem pecCount_other {r : Sfr} (hr : r ≠ ic) (hrc : r ≠ Sfr.pecc ch) : (x.pecCount ic ch n).reg r = x.reg r := by
  unfold State.pecCount State.setRegBit
  dsimp only
  rw [apply_ite (State.reg · r), setReg_reg, if_neg hr, ite_self, apply_ite (State.reg · r), setReg_reg, if_neg hrc,
    ite_self]

end

/-- COUNT in the low byte of a control word. -/
theorem count_field (w : Word) {n : Nat} (hn : n < 256) :
    fieldNat ((w &&& 0xFF00) ||| BitVec.ofNat 16 n) 0 8 = n := by
  have hbits : ((w &&& 0xFF00) ||| BitVec.ofNat 16 n).extractLsb' 0 8 = BitVec.ofNat 8 n := by
    apply BitVec.eq_of_getLsbD_eq
    intro i hi
    rw [BitVec.getLsbD_extractLsb', BitVec.getLsbD_or, BitVec.getLsbD_and, BitVec.getLsbD_ofNat, BitVec.getLsbD_ofNat]
    interval_cases i <;> simp
  unfold fieldNat
  rw [hbits, BitVec.toNat_ofNat]
  exact Nat.mod_eq_of_lt hn

theorem count_rest (w : Word) {n : Nat} (hn : n < 256) :
    ((w &&& 0xFF00) ||| BitVec.ofNat 16 n) &&& 0xFF00 = w &&& 0xFF00 := by
  have hbits : BitVec.ofNat 16 n &&& 0xFF00 = 0 := by
    apply BitVec.eq_of_getLsbD_eq
    intro i hi
    rw [BitVec.getLsbD_and, BitVec.getLsbD_ofNat]
    by_cases hlow : i < 8
    · interval_cases i <;> simp
    · rw [Nat.testBit_lt_two_pow (hn.trans_le (Nat.pow_le_pow_right (n := 2) Nat.two_pos (not_lt.mp hlow)))]
      simp
  rw [BitVec.and_or_distrib_right, hbits, BitVec.and_assoc, BitVec.and_self]
  exact BitVec.or_zero

theorem pecLeft_lt (s : State) (ch : Fin 8) : s.pecLeft ch < 256 :=
  (BitVec.isLt _)

/-- The pointers lie outside the bytes moved. -/
theorem Moved.pointers {s x : State} {cells : List Nat} {ch : Fin 8} (h : Moved s x cells)
    (hcells : ∀ c ∈ cells, c ∉ pecCells ch) : x.srcp ch = s.srcp ch ∧ x.dstp ch = s.dstp ch := by
  obtain ⟨-, -, -, hmem⟩ := h
  have hkeep : ∀ c ∈ pecCells ch, x.mem.get c = s.mem.get c := fun c hc => hmem c fun hin => hcells c hin hc
  have hword : ∀ k, (∀ c ∈ wordCells k, c ∈ pecCells ch) → x.mem.getWord k = s.mem.getWord k := fun k hk => by
    unfold Memory.getWord
    rw [hkeep _ (hk _ (by simp [wordCells])), hkeep _ (hk _ (by simp [wordCells]))]
  exact ⟨hword _ fun _ => List.mem_append_left _, hword _ fun _ => List.mem_append_right _⟩

/-- What a transfer leaves that has moved its datum and its pointer, once COUNT is brought up to date. -/
theorem pecDone_of_stepped {s p : State} {ic : Sfr} {ch : Fin 8} {d : Word} {cells : List Nat} (hic : ic ≠ Sfr.pecc ch)
    (hcore : p.core = s.core) (hsfr : p.sfr = s.sfr)
    (hsrc : p.srcp ch = if 2 ≤ fieldNat (s.reg (Sfr.pecc ch)) 9 2 then s.srcp ch + d else s.srcp ch)
    (hdst : p.dstp ch = if fieldNat (s.reg (Sfr.pecc ch)) 9 2 = 1 then s.dstp ch + d else s.dstp ch)
    (hmem : ∀ c, c ∉ cells ++ pecCells ch → p.mem.get c = s.mem.get c) :
    PecDone s (p.pecCount ic ch (s.pecLeft ch)) ic ch d cells := by
  have hreg : ∀ r, p.reg r = s.reg r := fun r => congrArg (SfrFile.get · r) hsfr
  obtain ⟨hccore, hcmem, -⟩ := pecCount_keeps p ic ch (s.pecLeft ch)
  have hpecc := pecCount_pecc p ic ch (s.pecLeft ch) hic
  have hreq := pecCount_ic p ic ch (s.pecLeft ch) hic
  rw [hreg] at hpecc hreq
  have hlt : s.pecLeft ch - 1 < 256 := (Nat.sub_le _ _).trans_lt (pecLeft_lt s ch)
  refine ⟨(congrArg (Memory.getWord · _) hcmem).trans hsrc, (congrArg (Memory.getWord · _) hcmem).trans hdst,
    fun c hc => (congrArg (Memory.get · c) hcmem).trans (hmem c hc), ?left, ?rest, ?request, hccore.trans hcore,
    fun r hr hrc => (pecCount_other p ic ch _ hr hrc).trans (hreg r)⟩
  case left =>
    show fieldNat _ 0 8 = _
    rw [hpecc]
    split
    case isTrue hff => exact hff
    case isFalse => exact count_field _ hlt
  case rest =>
    rw [hpecc]
    split
    · rfl
    · exact count_rest _ hlt
  case request =>
    show wbit _ 7 = _
    rw [hreq]
    split
    · rfl
    · exact (wset_getLsbD _ _ _ _ (by decide)).trans (if_pos rfl)

/-- The same from a transfer that has moved its datum. -/
theorem pecDone_of_moved {s x : State} {ic : Sfr} {ch : Fin 8} (d : Word) {cells : List Nat} (hic : ic ≠ Sfr.pecc ch)
    (hcells : ∀ c ∈ cells, c ∉ pecCells ch) (hx : Moved s x cells) :
    PecDone s ((x.pecStepped ch (fieldNat (s.reg (Sfr.pecc ch)) 9 2) (s.srcp ch) (s.dstp ch) d).pecCount ic ch
      (s.pecLeft ch)) ic ch d cells := by
  obtain ⟨hsrc, hdst⟩ := hx.pointers hcells
  obtain ⟨hcore, hsfr, -, hmem⟩ := hx
  obtain ⟨hpcore, hpsfr, -⟩ := pecStepped_keeps x ch (fieldNat (s.reg (Sfr.pecc ch)) 9 2) (s.srcp ch) (s.dstp ch) d
  refine pecDone_of_stepped hic (hpcore.trans hcore) (hpsfr.trans hsfr) ?_ ?_ fun c hc => ?_
  · rw [pecStepped_srcp, hsrc]
  · rw [pecStepped_dstp, hdst]
  · rw [List.mem_append, not_or] at hc
    obtain ⟨hout, hpec⟩ := hc
    rw [pecStepped_other _ _ _ _ _ _ hpec, hmem c hout]

/-! ### The transfer in plain memory -/

/-- A word stored behind two accesses that the bus showed. -/
theorem moved_storeWord (s : State) (p q : Addr) (a b : Access) (k j : Nat) (v : Word) :
    Moved s (((s.shown p a k).shown q b j).storeWord j v) (wordCells j) :=
  ⟨rfl, rfl, rfl, fun _ hc => State.storeWord_get_other _ _ hc⟩

theorem moved_storeCell (s : State) (p q : Addr) (a b : Access) (k j : Nat) (v : Byte) :
    Moved s (((s.shown p a k).shown q b j).storeCell j v) [j] :=
  ⟨rfl, rfl, rfl, fun _ hc => Memory.get_set_other _ _ fun heq => hc (List.mem_singleton.mpr heq)⟩

/-- The transfer ends at this boundary, or the program goes on first (log 9). -/
theorem step_pecTransfer {s t : State} {ic : Sfr} {ch : Fin 8} (hround : s.atRound) (hs : s.service = .pec ic ch)
    (hrun : pecTransfer ic ch s = .ok ((), t)) (hwaiting : t.sys.waiting = s.sys.waiting) :
    step s = if Config.freeBool .takeRequest s.free 0 then .next t.afterInjected else s.runNext := by
  obtain ⟨-, -, -, hwait, hpec, -, hopen⟩ := id hround
  have hsame : { s with sys := { s.sys with waiting := false, pecWait := none } } = s := by
    rw [← hwait, ← hpec]
  have hinject : s.injectPec ic ch = .next t.afterInjected := by
    unfold State.injectPec
    rw [hsame, Act.toOutcome_ok hrun]
    dsimp only
    rw [hwaiting, hwait, if_neg Bool.false_ne_true]
  refine step_taken hround ?_
  unfold State.roundStep
  rw [hopen, if_pos rfl, hs, ← hinject]

section
variable {s x : State} {ic : Sfr} {ch : Fin 8} {cells : List Nat} (inc : Nat) (src dst d : Word) (n : Nat)

theorem pecEnd_waiting (h : Moved s x cells) :
    ((x.pecStepped ch inc src dst d).pecCount ic ch n).sys.waiting = s.sys.waiting := by
  obtain ⟨-, -, hwait, -⟩ := h
  obtain ⟨-, -, hstepped⟩ := pecStepped_keeps x ch inc src dst d
  obtain ⟨-, -, hcount⟩ := pecCount_keeps (x.pecStepped ch inc src dst d) ic ch n
  rw [hcount, hstepped, hwait]

/-- The bytes moved stay through the end of the transfer. -/
theorem pecEnd_get {c : Nat} (hc : c ∉ pecCells ch) :
    ((x.pecStepped ch inc src dst d).pecCount ic ch n).mem.get c = x.mem.get c := by
  obtain ⟨-, hmem, -⟩ := pecCount_keeps (x.pecStepped ch inc src dst d) ic ch n
  rw [hmem, pecStepped_other x ch inc src dst d hc]

theorem pecEnd_getWord {j : Nat} (hj : ∀ c ∈ wordCells j, c ∉ pecCells ch) :
    ((x.pecStepped ch inc src dst d).pecCount ic ch n).mem.getWord j = x.mem.getWord j := by
  unfold Memory.getWord
  rw [pecEnd_get inc src dst d n (hj _ (by simp [wordCells])), pecEnd_get inc src dst d n (hj _ (by simp [wordCells]))]

end

/-- Settles O52: the transfer is its read, write, pointer and count; in plain memory these change what `Moved` and
`pecDone_of_moved` say. -/
theorem pecTransferDone : Obligations.PecTransfer := by
  unfold Obligations.PecTransfer
  refine ⟨fun s ic ch k j _ hic hk hj => ⟨fun hword hsrc hdst hcells => ?word, fun hbyte hcell => ?byte⟩,
    fun s ic ch => ⟨fun v u x hword hsrc hdst hread hwrite => ?anyWord, fun v u x hbyte hread hwrite => ?anyByte,
      fun hword hodd => pecTransfer_odd ic hword hodd⟩⟩
  case word =>
    have hread := readWord_run hk (segment0_even hsrc)
    have hwrite := writeWord_run (s := s.shown (segment0 (s.srcp ch)) (.read true) k) (s.mem.getWord k) hj
      (segment0_even hdst)
    have hrun := pecTransfer_word ic hword hsrc hdst hread hwrite
    have hmoved := moved_storeWord s (segment0 (s.srcp ch)) (segment0 (s.dstp ch)) (.read true)
      (.ofWord (s.mem.getWord k)) k j (s.mem.getWord k)
    exact ⟨_, hrun, (pecEnd_getWord _ _ _ _ _ hcells).trans (State.storeWord_getWord _ _ _),
      pecDone_of_moved 2 hic hcells hmoved,
      fun hround hs => step_pecTransfer hround hs hrun (pecEnd_waiting _ _ _ _ _ hmoved)⟩
  case byte =>
    have hread := readByte_run hk
    have hwrite := writeByte_run (s := s.shown (segment0 (s.srcp ch)) (.read false) k) (s.mem.get k) hj
    have hrun := pecTransfer_byte ic hbyte hread hwrite
    have hmoved := moved_storeCell s (segment0 (s.srcp ch)) (segment0 (s.dstp ch)) (.read false)
      (.ofByte (s.mem.get k)) k j (s.mem.get k)
    exact ⟨_, hrun, (pecEnd_get _ _ _ _ _ hcell).trans (Memory.get_set_same _ _ _),
      pecDone_of_moved 1 hic (fun c hc => List.mem_singleton.mp hc ▸ hcell) hmoved,
      fun hround hs => step_pecTransfer hround hs hrun (pecEnd_waiting _ _ _ _ _ hmoved)⟩
  case anyWord => exact pecTransfer_word ic hword hsrc hdst (readWord_at hread) (writeWord_at hwrite)
  case anyByte => exact pecTransfer_byte ic hbyte (readByte_at hread) (writeByte_at hwrite)

end Sys2Proof.Machine
